-- ==== Sys2Proof/Word.lean ====
section
/-! DEFINITION. The word types of the J210's records and counters. -/

namespace Sys2Proof

/-- One byte of a record on the cue bus or on the order port (Chapter 11). -/
abbrev Byte := BitVec 8

/-- A 16-bit number: a CRC-16, a digest, a station set, a campaign, a junction number (Chapter 11). -/
abbrev Half := BitVec 16

/-- A frame value HF: a 24-bit count that wraps (R1). -/
abbrev Frame := BitVec 24

/-- The automation's name for a junction, 1 to 65,535 (Section 3.1). -/
abbrev JunctionNumber := BitVec 16

/-- A moment on one free-running scale, in nanoseconds (log 2, DESIGN CHOICE). -/
abbrev Moment := Nat

/-- A word of the store link. The manual gives no width, so it is a number (log 8, DESIGN CHOICE). -/
abbrev LinkWord := Nat

/-- One value for each of four like lines: MK0 to MK3, or GPO0 to GPO3. -/
structure Four (α : Type) where
  l0 : α
  l1 : α
  l2 : α
  l3 : α
  deriving DecidableEq, Repr

/-- The value of line `i`. -/
def Four.get {α : Type} (f : Four α) (i : Fin 4) : α :=
  match i with
  | 0 => f.l0
  | 1 => f.l1
  | 2 => f.l2
  | 3 => f.l3

/-- `f` with the value of line `i` replaced. -/
def Four.set {α : Type} (f : Four α) (i : Fin 4) (a : α) : Four α :=
  match i with
  | 0 => { f with l0 := a }
  | 1 => { f with l1 := a }
  | 2 => { f with l2 := a }
  | 3 => { f with l3 := a }

/-- The same value on all four lines. -/
def Four.all {α : Type} (a : α) : Four α := ⟨a, a, a, a⟩

/-- The four values, line 0 first. -/
def Four.toList {α : Type} (f : Four α) : List α := [f.l0, f.l1, f.l2, f.l3]

end Sys2Proof
end

