-- ==== Sys2Proof/Syntax.lean ====
section
/-! DEFINITION. The commands of the J210: one constructor of `Instr` for each row of
spec/opcode_table.json, with what the command brings from outside the part. -/

namespace Sys2Proof

/-- A level on a marker line or a cue line (Section 7.8). -/
inductive Level where
  | low
  | high
  deriving DecidableEq, Repr

/-- The operations that the blocks take at one frame boundary (R7). The manual gives them no order:
"either may be taken first" (R116, R131, R138, R148, R53, R99). -/
inductive BoundaryOp where
  /-- The Cue Bus Interface: station state, leaving MEMBER, opening the cycle, completing the beacon. -/
  | cueBus
  /-- The Claim Publisher's test of R99. -/
  | decline
  /-- The Junction Table's rule for time jumps (R53). -/
  | jumpEndings
  /-- The Marker Unit's judgement and hand-over (R107). -/
  | markers
  /-- The Junction Sequencer's boundary operation (R116). -/
  | sequencer
  /-- The Frame Ring's advance (R174). -/
  | ring
  /-- The load of a layout staged AT_FRAME (R145). -/
  | layoutLoad
  /-- The raise of REFERENCE_LOST, when this boundary loses the reference (R9). -/
  | referenceLost
  deriving DecidableEq, Repr

/-- What decides the open orders of one frame boundary (log 4, DESIGN CHOICE: an operand of the command
that issues it): the blocks in the order in which they act (one not named acts after those that are), and
whether the Layout Store's events of a start enter the queue before the sequencer's JUNCTION_STARTED. -/
structure BoundaryOrder where
  ops : List BoundaryOp
  storeFirst : Bool
  deriving DecidableEq, Repr

/-- A count word on HCL: one whose check is correct, with its value, or a bad word (Section 1.4). -/
inductive CountWord where
  | good (value : Frame)
  | bad
  deriving DecidableEq, Repr

/-- What a receiver heard in one slot of the cue cycle (R17): no carrier at any time, or carrier with the
bytes received, of all beacons in the slot, until its end. -/
inductive SlotHeard where
  | noCarrier
  | carrier (bytes : List Byte)
  deriving DecidableEq, Repr

/-- The commands, one for each row of the opcode table. An order command is a whole order frame of its
kind at the moment it is taken (R177): its payload bytes and the CRC-16 received after them. -/
inductive Instr where
  /-- RESET (R194): assertion of the RESET line, or power-up. -/
  | reset
  /-- REFERENCE_PULSE (R4): a pulse on REF, at its moment of arrival. -/
  | referencePulse (moment : Moment) (order : BoundaryOrder)
  /-- REFERENCE_WINDOW_CLOSE (R8): the open reference window closes with no pulse. -/
  | referenceWindowClose (order : BoundaryOrder)
  /-- FREE_RUN_EXPIRY (R12): the free-run timer expires. -/
  | freeRunExpiry (order : BoundaryOrder)
  /-- COUNT_WORD (R5): a count word has been received on HCL. -/
  | countWord (word : CountWord)
  /-- SLOT_END (R17): the next slot of the open cycle ends. -/
  | slotEnd (heard : SlotHeard)
  /-- CYCLE_CLOSE (R35): the close of the cycle whose slots have all ended. -/
  | cycleClose
  /-- LINE_EDGE_SETTLED (R101): the level of a marker line has changed and held for 10 µs. -/
  | lineEdgeSettled (line : Fin 4) (level : Level)
  /-- MARKER_PACKET (R103): a marker packet of the programme's ancillary data. -/
  | markerPacket (code : Half) (check : Half)
  /-- STORE_BLOCK (R163): a block on the store link: the index its header gives, the header word, the
  payload words and the parity word. -/
  | storeBlock (index : Nat) (header : LinkWord) (payload : List LinkWord) (parity : LinkWord)
  /-- STORE_END (R164): an END word. -/
  | storeEnd
  /-- STORE_DISCONNECT (R165): a DISCONNECT word. -/
  | storeDisconnect
  /-- STORE_RETRY (R166): a RETRY word. -/
  | storeRetry
  /-- BACKOFF_EXPIRY (R166): the 16 link word periods of BACKOFF are over. -/
  | backoffExpiry
  /-- STORE_ABORT (R167): an ABORT word. -/
  | storeAbort
  /-- NO_ANSWER_LIMIT (R168): 256 link word periods without the word that is due. -/
  | noAnswerLimit
  /-- OSEL_DEASSERTED (R177). -/
  | oselDeasserted
  /-- CONFIGURE (R180). -/
  | configure (payload : List Byte) (crc : Half)
  /-- PLAN (R41). -/
  | plan (payload : List Byte) (crc : Half)
  /-- AMEND (R44). -/
  | amend (payload : List Byte) (crc : Half)
  /-- CANCEL (R50). -/
  | cancel (payload : List Byte) (crc : Half)
  /-- WITHDRAW_ALL (R52). -/
  | withdrawAll (payload : List Byte) (crc : Half)
  /-- LAYOUT (R144). -/
  | layout (payload : List Byte) (crc : Half)
  /-- RESUME_FETCH (R170). -/
  | resumeFetch (payload : List Byte) (crc : Half)
  /-- QUERY_STATUS (R182). -/
  | queryStatus (payload : List Byte) (crc : Half)
  /-- QUERY_JUNCTION (R183). -/
  | queryJunction (payload : List Byte) (crc : Half)
  /-- QUERY_MIRROR (R184). -/
  | queryMirror (payload : List Byte) (crc : Half)
  /-- READ_EVENTS (R187). -/
  | readEvents (payload : List Byte) (crc : Half)
  /-- CLEAR_ALARM (R191). -/
  | clearAlarm (payload : List Byte) (crc : Half)
  /-- OSEL_ASSERTED (R177). -/
  | oselAsserted
  /-- UNKNOWN_ORDER_KIND (R178): an order frame whose kind byte is none of the twelve. -/
  | unknownOrderKind (kind : Byte) (payload : List Byte) (crc : Half)
  /-- OWN_SLOT_START (R16): the own slot of the open cycle begins. -/
  | ownSlotStart
  deriving DecidableEq, Repr

end Sys2Proof
end

