-- ==== Sys2Proof/Machine/State.lean ====
section
/-! DEFINITION. The state of the J210: every item that the manual gives a block, block by block, with the
queue of commands that wait, and the state after reset. All of it is plain data. -/

namespace Sys2Proof.Machine

/-! ### Reference Timing Unit (Chapter 1) -/

/-- The reference state (Section 1.2). -/
inductive RefState where
  | seeking
  | locked
  | holdover
  deriving DecidableEq, Repr

/-- The state of the Reference Timing Unit (table of Section 1.2; R3). -/
structure Timing where
  refState : RefState
  hf : Frame
  hfValid : Bool
  /-- The period estimate P. -/
  period : Option Nat
  pulseRun : Nat
  runPeriod : Option Nat
  /-- The moment of the last pulse of the run, from which R4 measures. -/
  lastPulse : Moment
  missing : Nat
  trackRun : Nat
  trackLast : Option Frame
  trackFresh : Bool
  jumpRun : Nat
  jumpLast : Option Frame
  pendingAdoption : Option Frame
  /-- The free-run timer: stopped, or the moment of its next expiry. -/
  freeRun : Option Moment
  /-- The basis of the current boundary (R8). -/
  basis : Moment
  deriving DecidableEq, Repr

/-- What the origin of a frame boundary is (R7). -/
inductive Origin where
  | pulse
  | substitute
  | freeRun
  deriving DecidableEq, Repr

/-! ### Claims, as beacons and the mirror carry them (Chapters 2 and 4) -/

/-- The class of a claim (Section 4.1). -/
inductive ClaimClass where
  | opened
  | locked
  | onAir
  deriving DecidableEq, Repr

/-- The fields of a claim position (Section 11.2). `stop` is the manual's "end". -/
structure Claim where
  tag : Byte
  cls : ClaimClass
  posted : Frame
  start : Frame
  stop : Frame
  campaign : Half
  deriving DecidableEq, Repr

/-- The beacon's contents but for the sender HF and the check, as held from a close on (R15). -/
structure Beacon where
  station : Nat
  digest : Half
  bitmap : Half
  claims : List Claim
  deriving DecidableEq, Repr

/-! ### Cue Bus Interface (Chapter 2) -/

/-- The station state, SILENT with its cause (Section 2.7). -/
inductive StationState where
  | unconfigured
  | listening
  | member
  | silentReference
  | silentClash
  deriving DecidableEq, Repr

/-- The state of a presence entry (Section 2.5). -/
inductive PresenceState where
  | empty
  | present
  | absent
  deriving DecidableEq, Repr

/-- What a GOOD beacon sets together in a presence entry (R22; mark at byte 2 of a station block). -/
structure LastGood where
  hf : Frame
  digest : Half
  senderHf : Frame
  bitmap : Half
  deriving DecidableEq, Repr

/-- One entry of the presence table (Section 2.5). -/
structure PresenceEntry where
  state : PresenceState
  missed : Nat
  heard : Option LastGood
  corrupt : Nat
  silent : Nat
  mismatch : Bool
  deriving DecidableEq, Repr

/-- An open cue cycle: the frame it belongs to, the basis and period its slots are timed from (R14), and
the number of the slot that ends next. -/
structure Cycle where
  hf : Frame
  basis : Moment
  period : Nat
  nextSlot : Nat
  deriving DecidableEq, Repr

/-- The state of the Cue Bus Interface. -/
structure CueBus where
  station : StationState
  listening : Nat
  mismatches : Nat
  digest : Option Half
  held : Option Beacon
  /-- The completed beacon of the current cycle (R16). -/
  sending : Option (List Byte)
  txen : Bool
  cycle : Option Cycle
  presence : Vector PresenceEntry 16
  groupMismatch : Bool
  deriving DecidableEq, Repr

/-! ### Layouts (Chapter 8) -/

/-- A window on the 1920 × 1080 grid (Section 8.1). -/
structure Window where
  x : Nat
  y : Nat
  width : Nat
  height : Nat
  deriving DecidableEq, Repr

/-- A layout record (Section 8.1). -/
structure Layout where
  credits : Window
  promo : Window
  fill : Nat
  deriving DecidableEq, Repr

/-- The load mode of a staged layout (Section 8.2). -/
inductive LoadMode where
  | atFrame
  | atRampEnd
  | atJunction
  deriving DecidableEq, Repr

/-- The two slots of the Layout Store. -/
inductive LayoutSlot where
  | l0
  | l1
  deriving DecidableEq, Repr

/-- The state of the Layout Store (Section 8.2). -/
structure LayoutStore where
  slot0 : Layout
  slot1 : Layout
  active : LayoutSlot
  staged : Option LoadMode
  deriving DecidableEq, Repr

/-- The Compositor's composition mode (Section 8.5). -/
inductive CompositionMode where
  | passThrough
  | junction
  deriving DecidableEq, Repr

/-! ### Junction records (Chapter 3) -/

/-- What starts a junction on air (Section 3.1). -/
inductive Trigger where
  | timed
  | marked
  deriving DecidableEq, Repr

/-- A marker source (Section 6.1). -/
inductive MarkerSource where
  | mk0
  | mk1
  | mk2
  | mk3
  | inBand
  deriving DecidableEq, Repr

/-- What a MARKED junction does when no marker comes (Section 3.1). -/
inductive Fallback where
  | lateStart
  | abandon
  deriving DecidableEq, Repr

/-- A promo: clip id, campaign, clip length (Section 3.1). -/
structure Promo where
  clip : BitVec 32
  campaign : Half
  length : Nat
  deriving DecidableEq, Repr

/-- What a cue point does (Section 7.8). -/
inductive CueAction where
  | setActive
  | clear
  | toggle
  | pulse
  deriving DecidableEq, Repr

/-- A cue point (Section 3.1). -/
structure CuePoint where
  offset : Nat
  line : Fin 4
  action : CueAction
  deriving DecidableEq, Repr

/-- The field set of PLAN and AMEND, without the junction number (Section 3.1). -/
structure FieldSet where
  trigger : Trigger
  source : Option MarkerSource
  snom : Frame
  early : Nat
  rin : Nat
  hold : Nat
  minHold : Nat
  rout : Nat
  fallback : Option Fallback
  primary : Promo
  alternate : Option Promo
  layout : Option Layout
  cues : List CuePoint
  deriving DecidableEq, Repr

/-- The states of a junction record (Section 3.4). -/
inductive RecordState where
  | planned
  | opened
  | locked
  | primed
  | squeezeIn
  | hold
  | release
  deriving DecidableEq, Repr

/-- Which promo the junction will play (Section 3.1). -/
inductive PromoInUse where
  | primary
  | alternate
  deriving DecidableEq, Repr

/-- The outcome of a junction (Section 3.4). -/
inductive JunctionOutcome where
  | completed
  | releasedEarly
  | declined
  | abandoned
  | cancelled
  deriving DecidableEq, Repr

/-- The reasons of outcomes and of releases (Section 11.7, "reason, and release reason"). -/
inductive Reason where
  | releaseMarker
  | cancel
  | promoFailure
  | promoRefused
  | noLock
  | silent
  | timeJump
  | markerTimeout
  | promoNotReady
  | ordinary
  deriving DecidableEq, Repr

/-- The terminal outcome of a record with its reason (Section 3.4). -/
structure Ending where
  outcome : JunctionOutcome
  reason : Option Reason
  deriving DecidableEq, Repr

/-- A pending amendment: the amended field set and its promo in use (R43, R48). -/
structure Amendment where
  fields : FieldSet
  promo : PromoInUse
  deriving DecidableEq, Repr

/-- A junction record (Section 3.1). -/
structure Junction where
  number : JunctionNumber
  fields : FieldSet
  state : RecordState
  promo : PromoInUse
  pending : Option Amendment
  actualFirst : Option Frame
  actualHold : Option Nat
  ending : Option Ending
  deriving DecidableEq, Repr

/-! ### Claim Mirror (Chapter 4) -/

/-- The result of a resolution for one claim (Section 4.1). -/
inductive SeatResult where
  | seated
  | unseatedBudget
  | unseatedCampaign
  deriving DecidableEq, Repr

/-- A claim of the mirror, with its result and rank of the last resolution that judged it. Its owner is the
station of its entry. -/
structure MirrorClaim where
  claim : Claim
  seat : Option SeatResult
  rank : Option Nat
  deriving DecidableEq, Repr

/-- One entry of the mirror (R56). -/
structure MirrorEntry where
  claims : List MirrorClaim
  writtenHf : Option Frame
  deriving DecidableEq, Repr

/-- The Claim Mirror (R56). -/
structure Mirror where
  entries : Vector MirrorEntry 16
  lastResolution : Option Frame
  deriving DecidableEq, Repr

/-! ### Claim Publisher (Chapter 5) -/

/-- The role of an own claim (Section 5.1). -/
inductive ClaimRole where
  | record
  | secondary
  deriving DecidableEq, Repr

/-- An own claim (Section 5.1). -/
structure OwnClaim where
  junction : JunctionNumber
  role : ClaimRole
  tag : Option Byte
  cls : ClaimClass
  posted : Option Frame
  start : Frame
  stop : Frame
  campaign : Half
  settle : Option Nat
  mark : Bool
  conflict : Bool
  deriving DecidableEq, Repr

/-- The state of the Claim Publisher (Section 5.1). -/
structure Publisher where
  claims : List OwnClaim
  lastTag : Byte
  memberCloses : Nat
  lastChoice : List Claim
  deriving DecidableEq, Repr

/-! ### Marker Unit (Chapter 6) -/

/-- A valid capture record (Section 6.4). -/
structure Capture where
  source : MarkerSource
  captureFrame : Frame
  availability : Frame
  overwrite : Bool
  deriving DecidableEq, Repr

/-- The five start capture records; an invalid record is absent (R105). -/
structure StartRecords where
  mk0 : Option Capture
  mk1 : Option Capture
  mk2 : Option Capture
  mk3 : Option Capture
  inBand : Option Capture
  deriving DecidableEq, Repr

/-- The state of the Marker Unit (Section 6.4), with what the in-band detector has seen in the current
frame and whether that frame is one it will judge (R103). -/
structure Markers where
  starts : StartRecords
  release : Option Capture
  startCount : Nat
  releaseCount : Nat
  startSeen : Bool
  releaseSeen : Bool
  judged : Bool
  deriving DecidableEq, Repr

/-! ### Junction Sequencer (Chapter 7) -/

/-- The phase of the on-air junction (Section 7.1). -/
inductive Phase where
  | none
  | squeezeIn
  | hold
  | release
  deriving DecidableEq, Repr

/-- The state of the Junction Sequencer (Section 7.1). -/
structure Sequencer where
  onAir : Option JunctionNumber
  phase : Phase
  first : Option Frame
  hold : Option Nat
  frameCounter : Nat
  ramp : Nat
  holdLeft : Nat
  releaseLeft : Nat
  reason : Option Reason
  begun : Bool
  fresh : Bool
  lines : Four Level
  pulse : Four Bool
  deriving DecidableEq, Repr

/-! ### Promo Fetch Engine and Frame Ring (Chapter 9) -/

/-- The engine state (Section 9.2). -/
inductive EngineState where
  | idle
  | requesting
  | receiving
  | backoff
  | halted
  deriving DecidableEq, Repr

/-- The current request (Section 9.2). -/
structure Request where
  junction : JunctionNumber
  clip : BitVec 32
  index : Nat
  first : Nat
  count : Nat
  orphaned : Bool
  deriving DecidableEq, Repr

/-- A fetch entry (Section 9.2). -/
structure FetchEntry where
  junction : JunctionNumber
  clip : BitVec 32
  needed : Nat
  fetchIndex : Nat
  deriving DecidableEq, Repr

/-- The state of the Promo Fetch Engine (Section 9.2). -/
structure Engine where
  state : EngineState
  request : Option Request
  retry : Nat
  refetch : Option Nat
  discarding : Bool
  condemned : Bool
  /-- The current run broke the protocol (R159), or the present backoff follows such a run (R166). -/
  broken : Bool
  /-- The block index that the run must carry next (R159). -/
  expect : Nat
  entries : List FetchEntry
  deriving DecidableEq, Repr

/-- The state of a ring slot that is not FREE (Section 9.5). -/
inductive SlotState where
  | filling
  | ready
  | shown
  | damaged
  deriving DecidableEq, Repr

/-- A ring slot that is not FREE, with the payload words of its delivered blocks, block 0 first (R163). -/
structure RingSlot where
  state : SlotState
  junction : JunctionNumber
  index : Nat
  blocks : Nat
  data : List (List LinkWord)
  deriving DecidableEq, Repr

/-- The state of the Frame Ring (Section 9.5). A FREE slot is absent. -/
structure Ring where
  slots : List (Option RingSlot)
  order : List Nat
  onAir : Option JunctionNumber
  shown : Nat
  next : Nat
  consecutive : Nat
  slips : Nat
  drops : Nat
  frozen : Bool
  fresh : Bool
  deriving DecidableEq, Repr

/-! ### Order Port, configuration and reporting (Chapter 10) -/

/-- The role of a marker line (Section 6.1). -/
inductive LineRole where
  | start
  | release
  | unused
  deriving DecidableEq, Repr

/-- The active edge of a marker line (Section 6.2). -/
inductive ActiveEdge where
  | rising
  | falling
  deriving DecidableEq, Repr

/-- The configuration record (Section 10.2). -/
structure Configuration where
  station : Nat
  slots : Nat
  concurrency : Nat
  settle : Nat
  horizon : Nat
  lead : Nat
  depth : Nat
  roles : Four LineRole
  edges : Four ActiveEdge
  startCode : Half
  releaseCode : Half
  rests : Four Level
  deriving DecidableEq, Repr

/-- The status of a reply (Section 10.1). -/
inductive Status where
  | accepted
  | checkError
  | refusedFormat
  | refusedState
  | refusedRange
  | refusedFull
  | refusedDuplicate
  | refusedLength
  | refusedOverlap
  | refusedLate
  | refusedUnknown
  | refusedStale
  deriving DecidableEq, Repr

/-- A reply: its status and payload (Section 10.1). -/
structure Reply where
  status : Status
  payload : List Byte
  deriving DecidableEq, Repr

/-- The exchange on the order port (R177): none, an order frame being read, or the reply being sent. -/
inductive Exchange where
  | idle
  | reading
  | replying (reply : Reply)
  deriving DecidableEq, Repr

/-- The kinds of event (Section 10.4). -/
inductive EventKind where
  | timeJump
  | stationPresent
  | stationAbsent
  | claimLocked
  | lockLost
  | claimUnseated
  | forfeit
  | promoSwitched
  | amendAdopted
  | amendLapsed
  | junctionCommitted
  | marker
  | junctionStarted
  | releaseBegun
  | releaseNoted
  | junctionEnd
  | layoutLoaded
  | layoutDropped
  | stall
  | promoCounts
  | alarm
  deriving DecidableEq, Repr

/-- An event record (Section 10.4). -/
structure Event where
  seq : BitVec 16
  hf : Frame
  kind : EventKind
  junction : Option JunctionNumber
  code : BitVec 24
  value : BitVec 24
  deriving DecidableEq, Repr

/-- The eight alarms (Section 10.5). -/
inductive AlarmName where
  | referenceLost
  | slotClash
  | groupMismatch
  | fetchHalted
  | promoFailed
  | seatConflict
  | markerOverwrite
  | eventOverflow
  deriving DecidableEq, Repr

/-- One alarm (R188). -/
structure Alarm where
  flag : Bool
  count : BitVec 8
  detail : Option (BitVec 24)
  deriving DecidableEq, Repr

/-- The eight alarms by name. -/
structure Alarms where
  referenceLost : Alarm
  slotClash : Alarm
  groupMismatch : Alarm
  fetchHalted : Alarm
  promoFailed : Alarm
  seatConflict : Alarm
  markerOverwrite : Alarm
  eventOverflow : Alarm
  deriving DecidableEq, Repr

/-- The event queue and the alarms (Sections 10.4 and 10.5). -/
structure Reporting where
  events : List Event
  nextSeq : BitVec 16
  alarms : Alarms
  deriving DecidableEq, Repr

/-! ### The whole part -/

/-- The state of the J210, block by block, with the settled levels on its marker pins and the queue of
commands that wait (first in, first out). -/
structure State where
  timing : Timing
  bus : CueBus
  table : List Junction
  mirror : Mirror
  publisher : Publisher
  markers : Markers
  sequencer : Sequencer
  layouts : LayoutStore
  compositor : CompositionMode
  engine : Engine
  ring : Ring
  config : Option Configuration
  exchange : Exchange
  reporting : Reporting
  markerPins : Four Level
  pending : List Instr
  deriving DecidableEq, Repr

/-- Why the machine stops with a fault: never. The manual gives the part no fault that stops it; what goes
wrong is a reply status, an event or an alarm, and the part goes on. No constructor, so no command can
fault; this is neither safe nor unsafe, since nothing is left out by it. -/
inductive Fault where
  deriving DecidableEq, Repr

/-- Why a command is refused. -/
inductive Refusal where
  /-- Raised only by an arm of `exec` whose command has no meaning yet; no arm raises it now. Safe: it
  stops where the part would go on. -/
  | notModelled (mnemonic : String)
  deriving DecidableEq, Repr

/-! ### Reset -/

/-- The Reference Timing Unit after reset (R3). `lastPulse` and `basis` are implied registers, zero by log 7. -/
def Timing.reset : Timing where
  refState := .seeking
  hf := 0
  hfValid := false
  period := none
  pulseRun := 0
  runPeriod := none
  lastPulse := 0
  missing := 0
  trackRun := 0
  trackLast := none
  trackFresh := false
  jumpRun := 0
  jumpLast := none
  pendingAdoption := none
  freeRun := none
  basis := 0

/-- A presence entry after reset (R21). -/
def PresenceEntry.reset : PresenceEntry where
  state := .empty
  missed := 0
  heard := none
  corrupt := 0
  silent := 0
  mismatch := false

/-- The Cue Bus Interface after reset (R33). -/
def CueBus.reset : CueBus where
  station := .unconfigured
  listening := 0
  mismatches := 0
  digest := none
  held := none
  sending := none
  txen := false
  cycle := none
  presence := Vector.replicate 16 PresenceEntry.reset
  groupMismatch := false

/-- A mirror entry after reset (R57). -/
def MirrorEntry.reset : MirrorEntry where
  claims := []
  writtenHf := none

/-- The mirror after reset (R57). -/
def Mirror.reset : Mirror where
  entries := Vector.replicate 16 MirrorEntry.reset
  lastResolution := none

/-- The Claim Publisher after reset (R76). -/
def Publisher.reset : Publisher where
  claims := []
  lastTag := 0
  memberCloses := 0
  lastChoice := []

/-- The Marker Unit after reset (R105). -/
def Markers.reset : Markers where
  starts := ⟨none, none, none, none, none⟩
  release := none
  startCount := 0
  releaseCount := 0
  startSeen := false
  releaseSeen := false
  judged := false

/-- The Junction Sequencer after reset (R114). -/
def Sequencer.reset : Sequencer where
  onAir := none
  phase := .none
  first := none
  hold := none
  frameCounter := 0
  ramp := 0
  holdLeft := 0
  releaseLeft := 0
  reason := none
  begun := false
  fresh := false
  lines := Four.all .low
  pulse := Four.all false

/-- The default layout (Section 8.2). -/
def Layout.default : Layout where
  credits := { x := 1280, y := 720, width := 640, height := 360 }
  promo := { x := 0, y := 0, width := 1280, height := 720 }
  fill := 0

/-- The Layout Store after reset (R143). -/
def LayoutStore.reset : LayoutStore where
  slot0 := Layout.default
  slot1 := Layout.default
  active := .l0
  staged := none

/-- The Promo Fetch Engine after reset (R160). `broken` and `expect` are implied registers (log 7). -/
def Engine.reset : Engine where
  state := .idle
  request := none
  retry := 0
  refetch := none
  discarding := false
  condemned := false
  broken := false
  expect := 0
  entries := []

/-- The Frame Ring after reset (R172): every slot FREE; the slot count is taken from CONFIGURE. -/
def Ring.reset : Ring where
  slots := []
  order := []
  onAir := none
  shown := 0
  next := 0
  consecutive := 0
  slips := 0
  drops := 0
  frozen := false
  fresh := false

/-- An alarm after reset (R188). -/
def Alarm.reset : Alarm where
  flag := false
  count := 0
  detail := none

/-- The event queue and the alarms after reset (R194). -/
def Reporting.reset : Reporting where
  events := []
  nextSeq := 0
  alarms := {
    referenceLost := Alarm.reset
    slotClash := Alarm.reset
    groupMismatch := Alarm.reset
    fetchHalted := Alarm.reset
    promoFailed := Alarm.reset
    seatConflict := Alarm.reset
    markerOverwrite := Alarm.reset
    eventOverflow := Alarm.reset }

/-- The machine right after reset: every block at the values its chapter gives, no configuration, no
exchange, an empty queue of commands. The marker pins are inputs; LOW is the model's choice (log 5). -/
def State.reset : State where
  timing := Timing.reset
  bus := CueBus.reset
  table := []
  mirror := Mirror.reset
  publisher := Publisher.reset
  markers := Markers.reset
  sequencer := Sequencer.reset
  layouts := LayoutStore.reset
  compositor := .passThrough
  engine := Engine.reset
  ring := Ring.reset
  config := none
  exchange := .idle
  reporting := Reporting.reset
  markerPins := Four.all .low
  pending := []

end Sys2Proof.Machine
end

