-- ==== Sys2Proof/Machine/Ops.lean ====
section
/-! DEFINITION. The shared operations: frame arithmetic and intervals (R1, R2), the CRC-16 (R195), and the
lookups and updates of the tables that the blocks share. -/

namespace Sys2Proof.Machine

/-! ### Frame arithmetic (R1) and intervals (R2) -/

/-- Frame `a` is ahead of frame `b` (R1). -/
def ahead (a b : Frame) : Bool :=
  decide (1 ≤ (a - b).toNat) && decide ((a - b).toNat ≤ 8388607)

/-- Frame `a` is behind frame `b` (R1). -/
def behind (a b : Frame) : Bool := ahead b a

/-- The frame `n` frames after `a`, modulo 2^24 (R1). -/
def addFrames (a : Frame) (n : Nat) : Frame := a + BitVec.ofNat 24 n

/-- The frame `n` frames before `a`, modulo 2^24 (R1). -/
def subFrames (a : Frame) (n : Nat) : Frame := a - BitVec.ofNat 24 n

/-- The interval [a, b) holds frame x (R2). -/
def holds (a b x : Frame) : Bool := decide ((x - a).toNat < (b - a).toNat)

/-- The intervals [a, b) and [c, d) intersect (R2). An interval of length 0 holds no frame, so it
intersects nothing. -/
def intersects (a b c d : Frame) : Bool :=
  a != b && c != d && (holds c d a || holds a b c)

/-- The interval [a, b) lies within [c, d) (R2). -/
def liesWithin (a b c d : Frame) : Bool :=
  holds c d a && decide ((b - c).toNat ≤ (d - c).toNat)

/-! ### The check (R195) -/

/-- One bit through the CRC-16 register; the generator is x^16 + x^12 + x^5 + 1. -/
def crcBit (r : Half) (bit : Bool) : Half :=
  (r <<< 1) ^^^ (if r.msb ^^ bit then 0x1021#16 else 0#16)

/-- One byte through the register, from its most significant bit. -/
def crcByte (r : Half) (b : Byte) : Half :=
  [7, 6, 5, 4, 3, 2, 1, 0].foldl (fun r i => crcBit r (b.getLsbD i)) r

/-- The CRC-16 of the covered bytes: the register starts at all ones, with no final inversion. -/
def crc16 (bytes : List Byte) : Half := bytes.foldl crcByte 0xFFFF#16

/-! ### Numbers as bytes, most significant first (R196) -/

/-- A number in one byte. -/
def byte1 (n : Nat) : Byte := BitVec.ofNat 8 n

/-- A number in two bytes. -/
def bytes2 (n : Nat) : List Byte := [byte1 (n / 256), byte1 n]

/-- A number in three bytes. -/
def bytes3 (n : Nat) : List Byte := [byte1 (n / 65536), byte1 (n / 256), byte1 n]

/-- A number in four bytes. -/
def bytes4 (n : Nat) : List Byte := [byte1 (n / 16777216), byte1 (n / 65536), byte1 (n / 256), byte1 n]

/-- A flag or a mark byte: 1 or 0. -/
def byteFlag (b : Bool) : Byte := if b then 1 else 0

/-- Byte `i` of a record, as a number. -/
def num1 (p : List Byte) (i : Nat) : Nat := (p.getD i 0).toNat

/-- The two-byte number at byte `i` of a record. -/
def num2 (p : List Byte) (i : Nat) : Nat := num1 p i * 256 + num1 p (i + 1)

/-- The three-byte number at byte `i` of a record. -/
def num3 (p : List Byte) (i : Nat) : Nat := num1 p i * 65536 + num2 p (i + 1)

/-- The four-byte number at byte `i` of a record. -/
def num4 (p : List Byte) (i : Nat) : Nat := num1 p i * 16777216 + num3 p (i + 1)

/-! ### Counts -/

/-- A count held at 65,535. -/
def countHeld (n : Nat) : Nat := min (n + 1) 65535

/-! ### Configured values -/

/-- The commit lead L (R37); no rule reads it before CONFIGURE. -/
def State.lead (s : State) : Nat :=
  match s.config with
  | some c => c.lead
  | none => 0

/-- The configured rest level of cue line `i`; LOW before CONFIGURE (R136). -/
def State.restLevel (s : State) (i : Fin 4) : Level :=
  match s.config with
  | some c => c.rests.get i
  | none => .low

/-! ### Derived frames (R37) -/

/-- Claim start: Snom − E. -/
def FieldSet.claimStart (f : FieldSet) : Frame := subFrames f.snom f.early

/-- Claim end: Snom + Rin + H + Rout. -/
def FieldSet.claimEnd (f : FieldSet) : Frame := addFrames f.snom (f.rin + f.hold + f.rout)

/-- Latest start: Snom + H − Hmin. -/
def FieldSet.latestStart (f : FieldSet) : Frame := subFrames (addFrames f.snom f.hold) f.minHold

/-- Commit frame: claim start − L. -/
def FieldSet.commitFrame (f : FieldSet) (lead : Nat) : Frame := subFrames f.claimStart lead

/-- The campaign of the promo in use (Section 3.1); a field set without an alternate has only its primary. -/
def FieldSet.campaignOf (f : FieldSet) (p : PromoInUse) : Half :=
  match p, f.alternate with
  | .alternate, some a => a.campaign
  | _, _ => f.primary.campaign

/-- The clip id of the promo in use. -/
def FieldSet.clipOf (f : FieldSet) (p : PromoInUse) : BitVec 32 :=
  match p, f.alternate with
  | .alternate, some a => a.clip
  | _, _ => f.primary.clip

/-- The record's campaign in use. -/
def Junction.campaign (r : Junction) : Half := r.fields.campaignOf r.promo

/-! ### The Junction Table (R38) -/

/-- The on-air states (Section 3.4). -/
def RecordState.isOnAir : RecordState → Bool
  | .squeezeIn => true
  | .hold => true
  | .release => true
  | .planned => false
  | .opened => false
  | .locked => false
  | .primed => false

/-- PRIMED or on air. -/
def RecordState.isCommitted (st : RecordState) : Bool := st == .primed || st.isOnAir

/-- PLANNED, OPEN or LOCKED. -/
def RecordState.isUncommitted (st : RecordState) : Bool := !st.isCommitted

/-- The record with a junction number. -/
def State.junction? (s : State) (n : JunctionNumber) : Option Junction :=
  s.table.find? (fun r => r.number == n)

/-- The junction numbers in table order. -/
def State.numbers (s : State) : List JunctionNumber := s.table.map (·.number)

/-- A record put into its place in ascending order of claim start (R38). Where R1 does not order all the claim
starts, it stands before the first record that its claim start is behind (log 35). -/
def insertByStart (r : Junction) : List Junction → List Junction
  | [] => [r]
  | x :: xs =>
    if behind r.fields.claimStart x.fields.claimStart then r :: x :: xs
    else x :: insertByStart r xs

/-- The table without a record. -/
def removeNumber (n : JunctionNumber) (t : List Junction) : List Junction :=
  t.filter (fun r => r.number != n)

/-- A change of one record, in its place. -/
def State.updateJunction (s : State) (n : JunctionNumber) (f : Junction → Junction) : State :=
  { s with table := s.table.map (fun r => if r.number == n then f r else r) }

/-- A record whose derived frames may have moved takes its place in the order at once (R38). -/
def State.replaceJunction (s : State) (r : Junction) : State :=
  { s with table := insertByStart r (removeNumber r.number s.table) }

/-! ### Own claims (Section 5.1) -/

/-- Whether `c` is the claim of junction `n` in a role. -/
def OwnClaim.isOf (c : OwnClaim) (n : JunctionNumber) (role : ClaimRole) : Bool :=
  c.junction == n && c.role == role

/-- The own claim of junction `n` in a role. -/
def State.claim? (s : State) (n : JunctionNumber) (role : ClaimRole) : Option OwnClaim :=
  s.publisher.claims.find? (fun c => c.isOf n role)

/-- A change of one own claim. -/
def State.updateClaim (s : State) (n : JunctionNumber) (role : ClaimRole) (f : OwnClaim → OwnClaim) :
    State :=
  { s with publisher :=
      { s.publisher with claims := s.publisher.claims.map (fun c => if c.isOf n role then f c else c) } }

/-- An own claim is dropped (R76). -/
def State.dropClaim (s : State) (n : JunctionNumber) (role : ClaimRole) : State :=
  { s with publisher :=
      { s.publisher with claims := s.publisher.claims.filter (fun c => !c.isOf n role) } }

/-- Both claims of a junction are dropped: its record has ended (R40). -/
def State.dropClaims (s : State) (n : JunctionNumber) : State :=
  { s with publisher :=
      { s.publisher with claims := s.publisher.claims.filter (fun c => c.junction != n) } }

/-- A new own claim is held. -/
def State.addClaim (s : State) (c : OwnClaim) : State :=
  { s with publisher := { s.publisher with claims := s.publisher.claims ++ [c] } }

/-- The claim is to be published anew at the next choice: class OPEN, settle count 0, publish mark set, and
no tag or posted frame while it awaits publication (Section 5.1; log 27). -/
def OwnClaim.repost (c : OwnClaim) : OwnClaim :=
  { c with tag := none, cls := .opened, posted := none, settle := some 0, mark := true }

end Sys2Proof.Machine
end

