-- ==== Sys2Proof/Machine/Operands.lean ====
section
/-! DEFINITION. The forms in which values travel: the codes of Section 11.7, and the byte layouts of the
beacon (Section 11.2), the field set and the layout record (Section 11.4), the configuration record
(Section 11.5) and the event record (Section 11.6), read and written. -/

namespace Sys2Proof.Machine

/-! ### Codes of named values (Section 11.7) -/

def Trigger.code : Trigger → Byte
  | .timed => 1
  | .marked => 2

def Trigger.ofCode : Nat → Option Trigger
  | 1 => some .timed
  | 2 => some .marked
  | _ => none

def MarkerSource.code : MarkerSource → Byte
  | .mk0 => 1
  | .mk1 => 2
  | .mk2 => 3
  | .mk3 => 4
  | .inBand => 5

def MarkerSource.ofCode : Nat → Option MarkerSource
  | 1 => some .mk0
  | 2 => some .mk1
  | 3 => some .mk2
  | 4 => some .mk3
  | 5 => some .inBand
  | _ => none

def Fallback.code : Fallback → Byte
  | .lateStart => 1
  | .abandon => 2

def Fallback.ofCode : Nat → Option Fallback
  | 1 => some .lateStart
  | 2 => some .abandon
  | _ => none

def CueAction.code : CueAction → Byte
  | .setActive => 1
  | .clear => 2
  | .toggle => 3
  | .pulse => 4

def CueAction.ofCode : Nat → Option CueAction
  | 1 => some .setActive
  | 2 => some .clear
  | 3 => some .toggle
  | 4 => some .pulse
  | _ => none

def LoadMode.code : LoadMode → Byte
  | .atFrame => 1
  | .atRampEnd => 2
  | .atJunction => 3

def LoadMode.ofCode : Nat → Option LoadMode
  | 1 => some .atFrame
  | 2 => some .atRampEnd
  | 3 => some .atJunction
  | _ => none

/-- The load cause JUNCTION; the other three causes have their load mode's code. -/
def junctionLoadCode : Byte := 4

def LayoutSlot.code : LayoutSlot → Byte
  | .l0 => 0
  | .l1 => 1

def LineRole.code : LineRole → Byte
  | .start => 1
  | .release => 2
  | .unused => 3

def LineRole.ofCode : Nat → Option LineRole
  | 1 => some .start
  | 2 => some .release
  | 3 => some .unused
  | _ => none

def ActiveEdge.code : ActiveEdge → Byte
  | .rising => 1
  | .falling => 2

def ActiveEdge.ofCode : Nat → Option ActiveEdge
  | 1 => some .rising
  | 2 => some .falling
  | _ => none

def levelCode : Level → Byte
  | .low => 0
  | .high => 1

def levelOfCode : Nat → Option Level
  | 0 => some .low
  | 1 => some .high
  | _ => none

def RefState.code : RefState → Byte
  | .seeking => 0
  | .locked => 1
  | .holdover => 2

def StationState.code : StationState → Byte
  | .unconfigured => 0
  | .listening => 1
  | .member => 2
  | .silentReference => 3
  | .silentClash => 4

def PresenceState.code : PresenceState → Byte
  | .empty => 0
  | .present => 1
  | .absent => 2

def ClaimClass.code : ClaimClass → Byte
  | .opened => 1
  | .locked => 2
  | .onAir => 3

def ClaimClass.ofCode : Nat → Option ClaimClass
  | 1 => some .opened
  | 2 => some .locked
  | 3 => some .onAir
  | _ => none

def SeatResult.code : SeatResult → Byte
  | .seated => 1
  | .unseatedBudget => 2
  | .unseatedCampaign => 3

def RecordState.code : RecordState → Byte
  | .planned => 1
  | .opened => 2
  | .locked => 3
  | .primed => 4
  | .squeezeIn => 5
  | .hold => 6
  | .release => 7

def Phase.code : Phase → Byte
  | .none => 0
  | .squeezeIn => 1
  | .hold => 2
  | .release => 3

def PromoInUse.code : PromoInUse → Byte
  | .primary => 1
  | .alternate => 2

/-- The path of an accepted AMEND (R44). -/
inductive AmendPath where
  | replaced
  | kept
  | reposted
  | pending
  deriving DecidableEq, Repr

def AmendPath.code : AmendPath → Byte
  | .replaced => 1
  | .kept => 2
  | .reposted => 3
  | .pending => 4

def JunctionOutcome.code : JunctionOutcome → Byte
  | .completed => 1
  | .releasedEarly => 2
  | .declined => 3
  | .abandoned => 4
  | .cancelled => 5

def Reason.code : Reason → Byte
  | .releaseMarker => 1
  | .cancel => 2
  | .promoFailure => 3
  | .promoRefused => 4
  | .noLock => 5
  | .silent => 6
  | .timeJump => 7
  | .markerTimeout => 8
  | .promoNotReady => 9
  | .ordinary => 10

/-- How a junction was started (R123). -/
inductive StartKind where
  | timed
  | marked
  | lateStart
  deriving DecidableEq, Repr

def StartKind.code : StartKind → Byte
  | .timed => 1
  | .marked => 2
  | .lateStart => 3

/-- The disposition of a capture (R110, R111). -/
inductive Disposition where
  | used
  | early
  | ignored
  deriving DecidableEq, Repr

def Disposition.code : Disposition → Byte
  | .used => 1
  | .early => 2
  | .ignored => 3

/-- Why a promo was switched (R83, R169). -/
inductive SwitchCause where
  | campaign
  | store
  deriving DecidableEq, Repr

def SwitchCause.code : SwitchCause → Byte
  | .campaign => 1
  | .store => 2

/-- Why a pending amendment lapsed (R88, R47). -/
inductive LapseCause where
  | commitFrame
  | lockLost
  | forfeit
  | leftMember
  | noPosition
  | superseded
  deriving DecidableEq, Repr

def LapseCause.code : LapseCause → Byte
  | .commitFrame => 1
  | .lockLost => 2
  | .forfeit => 3
  | .leftMember => 4
  | .noPosition => 5
  | .superseded => 6

/-- Why a frame was given up (R164, R166). -/
inductive StallCause where
  | parity
  | retryLimit
  deriving DecidableEq, Repr

def StallCause.code : StallCause → Byte
  | .parity => 1
  | .retryLimit => 2

def EngineState.code : EngineState → Byte
  | .idle => 0
  | .requesting => 1
  | .receiving => 2
  | .backoff => 3
  | .halted => 4

/-- The state of a ring slot; FREE (an absent slot) has code 0. -/
def SlotState.code : SlotState → Byte
  | .filling => 1
  | .ready => 2
  | .shown => 3
  | .damaged => 4

def AlarmName.code : AlarmName → Byte
  | .referenceLost => 1
  | .slotClash => 2
  | .groupMismatch => 3
  | .fetchHalted => 4
  | .promoFailed => 5
  | .seatConflict => 6
  | .markerOverwrite => 7
  | .eventOverflow => 8

def AlarmName.ofCode : Nat → Option AlarmName
  | 1 => some .referenceLost
  | 2 => some .slotClash
  | 3 => some .groupMismatch
  | 4 => some .fetchHalted
  | 5 => some .promoFailed
  | 6 => some .seatConflict
  | 7 => some .markerOverwrite
  | 8 => some .eventOverflow
  | _ => none

/-- The kinds of event (Section 11.6). -/
def EventKind.code : EventKind → Byte
  | .timeJump => 1
  | .stationPresent => 2
  | .stationAbsent => 3
  | .claimLocked => 10
  | .lockLost => 11
  | .claimUnseated => 12
  | .forfeit => 13
  | .promoSwitched => 14
  | .amendAdopted => 15
  | .amendLapsed => 16
  | .junctionCommitted => 17
  | .marker => 20
  | .junctionStarted => 21
  | .releaseBegun => 22
  | .releaseNoted => 23
  | .junctionEnd => 24
  | .layoutLoaded => 30
  | .layoutDropped => 31
  | .stall => 40
  | .promoCounts => 41
  | .alarm => 50

/-- The statuses of a reply (Section 11.3). -/
def Status.code : Status → Byte
  | .accepted => 0
  | .checkError => 1
  | .refusedFormat => 2
  | .refusedState => 16
  | .refusedRange => 17
  | .refusedFull => 18
  | .refusedDuplicate => 19
  | .refusedLength => 20
  | .refusedOverlap => 21
  | .refusedLate => 22
  | .refusedUnknown => 23
  | .refusedStale => 24

/-- The twelve order kinds (Section 11.3). -/
inductive OrderKind where
  | configure
  | plan
  | amend
  | cancel
  | withdrawAll
  | layout
  | resumeFetch
  | queryStatus
  | queryJunction
  | queryMirror
  | readEvents
  | clearAlarm
  deriving DecidableEq, Repr

def OrderKind.code : OrderKind → Byte
  | .configure => 1
  | .plan => 2
  | .amend => 3
  | .cancel => 4
  | .withdrawAll => 5
  | .layout => 6
  | .resumeFetch => 7
  | .queryStatus => 16
  | .queryJunction => 17
  | .queryMirror => 18
  | .readEvents => 19
  | .clearAlarm => 20

/-! ### Enumerated and optional fields (R196) -/

/-- An enumerated field that may be absent: code 0 stands for absence, a code that names no value for
nothing at all. -/
def optionalCode {α : Type} (ofCode : Nat → Option α) (n : Nat) : Option (Option α) :=
  if n = 0 then some none else (ofCode n).map some

/-- The code of an optional enumerated field. -/
def codeOr0 {α : Type} (code : α → Byte) : Option α → Byte
  | some a => code a
  | none => 0

/-- A one-byte code as a detail code or value. -/
def detailOf (b : Byte) : BitVec 24 := b.setWidth 24

/-- A number as a detail code or value. -/
def detailNat (n : Nat) : BitVec 24 := BitVec.ofNat 24 n

/-- A composite detail code: byte 0 is the first, most significant, byte of the field (log 10). -/
def detailBytes (b0 b1 b2 : Byte) : BitVec 24 := b0 ++ b1 ++ b2

/-- A frame value in three bytes. -/
def frameBytes (f : Frame) : List Byte := bytes3 f.toNat

/-- A 16-bit number in two bytes. -/
def halfBytes (h : Half) : List Byte := bytes2 h.toNat

/-- An optional junction number; 0 for absent. -/
def junctionBytes : Option JunctionNumber → List Byte
  | some n => halfBytes n
  | none => [0, 0]

/-- A marked optional frame: a mark byte, then the frame, or zeros when it is absent. -/
def markedFrame : Option Frame → List Byte
  | some f => 1 :: frameBytes f
  | none => [0, 0, 0, 0]

/-! ### The claim position and the beacon (Section 11.2) -/

/-- A claim position: 13 bytes. -/
def Claim.encode (c : Claim) : List Byte :=
  [c.tag, c.cls.code] ++ frameBytes c.posted ++ frameBytes c.start ++ frameBytes c.stop ++
    halfBytes c.campaign

/-- An unused claim position: zeros. -/
def unusedClaim : List Byte := List.replicate 13 0

/-- The four claim positions, the unused ones as zeros. -/
def encodeClaims (claims : List Claim) : List Byte :=
  (claims.map Claim.encode).flatten ++ (List.replicate (4 - claims.length) unusedClaim).flatten

/-- Bytes 0 to 60 of a beacon, with its sender HF. -/
def Beacon.body (b : Beacon) (senderHf : Frame) : List Byte :=
  [byte1 b.station, byte1 b.claims.length] ++ halfBytes b.digest ++ halfBytes b.bitmap ++
    frameBytes senderHf ++ encodeClaims b.claims

/-- The completed beacon: 63 bytes, the last two its CRC-16 (R16). -/
def Beacon.encode (b : Beacon) (senderHf : Frame) : List Byte :=
  b.body senderHf ++ halfBytes (crc16 (b.body senderHf))

/-- The claim at position `i` of a beacon, when its class names one (R17). -/
def decodeClaim (bytes : List Byte) (i : Nat) : Option Claim :=
  let at0 := 9 + 13 * i
  (ClaimClass.ofCode (num1 bytes (at0 + 1))).map fun cls =>
    { tag := byte1 (num1 bytes at0)
      cls := cls
      posted := BitVec.ofNat 24 (num3 bytes (at0 + 2))
      start := BitVec.ofNat 24 (num3 bytes (at0 + 5))
      stop := BitVec.ofNat 24 (num3 bytes (at0 + 8))
      campaign := BitVec.ofNat 16 (num2 bytes (at0 + 11)) }

/-- The first `n` claim positions, when each of them in use has a class. -/
def decodeClaims (bytes : List Byte) : Nat → Option (List Claim)
  | 0 => some []
  | n + 1 =>
    match decodeClaims bytes n, decodeClaim bytes n with
    | some cs, some c => some (cs ++ [c])
    | _, _ => none

/-- What a GOOD beacon tells a receiver (R22, R58). -/
structure HeardBeacon where
  digest : Half
  bitmap : Half
  senderHf : Frame
  claims : List Claim
  deriving DecidableEq, Repr

/-- The bytes received in slot `slot` as a GOOD beacon, or nothing when any condition of R17 fails. -/
def goodBeacon (slot : Nat) (bytes : List Byte) : Option HeardBeacon :=
  if bytes.length = 63
      ∧ (crc16 (bytes.take 61)).toNat = num2 bytes 61
      ∧ num1 bytes 0 = slot
      ∧ num1 bytes 1 ≤ 4 then
    match decodeClaims bytes (num1 bytes 1) with
    | some claims =>
      if claims.all (fun c => ahead c.stop c.start) ∧ (claims.map (·.tag)).Nodup then
        some
          { digest := BitVec.ofNat 16 (num2 bytes 2)
            bitmap := BitVec.ofNat 16 (num2 bytes 4)
            senderHf := BitVec.ofNat 24 (num3 bytes 6)
            claims := claims }
      else none
    | none => none
  else none

/-! ### The layout record (Section 11.4) -/

def Window.encode (w : Window) : List Byte :=
  bytes2 w.x ++ bytes2 w.y ++ bytes2 w.width ++ bytes2 w.height

def Layout.encode (l : Layout) : List Byte :=
  l.credits.encode ++ l.promo.encode ++ [byte1 l.fill]

def decodeWindow (p : List Byte) (i : Nat) : Window :=
  { x := num2 p i, y := num2 p (i + 2), width := num2 p (i + 4), height := num2 p (i + 6) }

def decodeLayout (p : List Byte) (i : Nat) : Layout :=
  { credits := decodeWindow p i, promo := decodeWindow p (i + 8), fill := num1 p (i + 16) }

/-- A window of a size and place that R141 allows. -/
def Window.inGrid (w : Window) : Bool :=
  decide (64 ≤ w.width) && decide (w.width ≤ 1920) && decide (36 ≤ w.height) &&
    decide (w.height ≤ 1080) && decide (w.x + w.width ≤ 1920) && decide (w.y + w.height ≤ 1080)

/-- The windows cover no grid position in common: one ends, in columns or in rows, before the other
begins; windows whose edges touch are apart (R141). -/
def Window.apart (a b : Window) : Bool :=
  decide (a.x + a.width ≤ b.x) || decide (b.x + b.width ≤ a.x) ||
    decide (a.y + a.height ≤ b.y) || decide (b.y + b.height ≤ a.y)

/-- A layout record is valid (R141). -/
def Layout.valid (l : Layout) : Bool :=
  l.credits.inGrid && l.promo.inGrid && l.credits.apart l.promo && decide (l.fill ≤ 15)

/-! ### The field set (Section 11.4) -/

def Promo.encode (p : Promo) : List Byte :=
  bytes4 p.clip.toNat ++ halfBytes p.campaign ++ bytes3 p.length

def decodePromo (p : List Byte) (i : Nat) : Promo :=
  { clip := BitVec.ofNat 32 (num4 p i), campaign := BitVec.ofNat 16 (num2 p (i + 4)),
    length := num3 p (i + 6) }

def CuePoint.encode (c : CuePoint) : List Byte :=
  bytes2 c.offset ++ [byte1 c.line.val, c.action.code]

/-- The cue point at byte `i`, when its line and action name values. -/
def decodeCue (p : List Byte) (i : Nat) : Option CuePoint :=
  if h : num1 p (i + 2) < 4 then
    (CueAction.ofCode (num1 p (i + 3))).map fun a =>
      { offset := num2 p i, line := ⟨num1 p (i + 2), h⟩, action := a }
  else none

/-- The `n` cue points from byte `i` on, in list order. -/
def decodeCues (p : List Byte) : Nat → Nat → Option (List CuePoint)
  | _, 0 => some []
  | i, n + 1 =>
    match decodeCue p i, decodeCues p (i + 4) n with
    | some c, some cs => some (c :: cs)
    | _, _ => none

/-- The presence mark of the alternate promo, the term 1 of byte 24. -/
def hasAlternate (p : List Byte) : Bool := num1 p 24 % 2 == 1

/-- The presence mark of the layout, the term 2 of byte 24. -/
def hasLayout (p : List Byte) : Bool := num1 p 24 / 2 % 2 == 1

/-- The payload length that a PLAN or AMEND payload's own presence marks and cue point count call for
(R178, Section 11.4). -/
def fieldSetLength (p : List Byte) : Nat :=
  26 + (if hasAlternate p then 9 else 0) + (if hasLayout p then 17 else 0) + 4 * num1 p 25

/-- A PLAN or AMEND payload of a length that fits the kind. -/
def fieldSetFits (p : List Byte) : Bool :=
  decide (26 ≤ p.length) && p.length == fieldSetLength p

/-- The junction number of a PLAN, AMEND, CANCEL or QUERY_JUNCTION payload. -/
def payloadNumber (p : List Byte) : JunctionNumber := BitVec.ofNat 16 (num2 p 0)

/-- The field set of a payload that fits; nothing when a code names no value or another presence mark is
set, which the order's range check refuses (R178, R196). -/
def decodeFieldSet (p : List Byte) : Option FieldSet :=
  if num1 p 24 ≤ 3 then
    let layoutAt := if hasAlternate p then 35 else 26
    let cuesAt := if hasLayout p then layoutAt + 17 else layoutAt
    match Trigger.ofCode (num1 p 2), optionalCode MarkerSource.ofCode (num1 p 3),
        optionalCode Fallback.ofCode (num1 p 14), decodeCues p cuesAt (num1 p 25) with
    | some trigger, some source, some fallback, some cues =>
      some
        { trigger := trigger
          source := source
          snom := BitVec.ofNat 24 (num3 p 4)
          early := num1 p 7
          rin := num1 p 8
          hold := num2 p 9
          minHold := num2 p 11
          rout := num1 p 13
          fallback := fallback
          primary := decodePromo p 15
          alternate := if hasAlternate p then some (decodePromo p 26) else none
          layout := if hasLayout p then some (decodeLayout p layoutAt) else none
          cues := cues }
    | _, _, _, _ => none
  else none

/-- A field set as it travels, with the junction number before it. -/
def FieldSet.encode (f : FieldSet) (n : JunctionNumber) : List Byte :=
  halfBytes n ++ [f.trigger.code, codeOr0 MarkerSource.code f.source] ++ frameBytes f.snom ++
    [byte1 f.early, byte1 f.rin] ++ bytes2 f.hold ++ bytes2 f.minHold ++
    [byte1 f.rout, codeOr0 Fallback.code f.fallback] ++ f.primary.encode ++
    [byte1 ((if f.alternate.isSome then 1 else 0) + (if f.layout.isSome then 2 else 0)),
      byte1 f.cues.length] ++
    (match f.alternate with | some a => a.encode | none => []) ++
    (match f.layout with | some l => l.encode | none => []) ++
    (f.cues.map CuePoint.encode).flatten

/-- The four derived frames of a field set, 12 bytes (R37). -/
def FieldSet.derived (f : FieldSet) (lead : Nat) : List Byte :=
  frameBytes f.claimStart ++ frameBytes f.claimEnd ++ frameBytes f.latestStart ++
    frameBytes (f.commitFrame lead)

/-! ### The configuration record (Section 11.5) -/

/-- Four enumerated bytes from byte `i` on, one for each line. -/
def decodeFour {α : Type} (ofCode : Nat → Option α) (p : List Byte) (i : Nat) : Option (Four α) :=
  match ofCode (num1 p i), ofCode (num1 p (i + 1)), ofCode (num1 p (i + 2)),
      ofCode (num1 p (i + 3)) with
  | some a, some b, some c, some d => some ⟨a, b, c, d⟩
  | _, _, _, _ => none

/-- The ranges of the configuration record's numbers, the station number below N, and the two in-band codes
different unless 0 (R180, R100). -/
def Configuration.inRange (c : Configuration) : Bool :=
  [4, 8, 12, 16].contains c.slots && decide (c.station < c.slots) &&
    decide (1 ≤ c.concurrency) && decide (c.concurrency ≤ 8) &&
    decide (2 ≤ c.settle) && decide (c.settle ≤ 15) &&
    decide (1 ≤ c.horizon) && decide (c.horizon ≤ 65535) &&
    decide (4 ≤ c.lead) && decide (c.lead ≤ 255) &&
    [4, 8].contains c.depth &&
    (c.startCode != c.releaseCode || c.startCode == 0)

/-- The configuration record of a CONFIGURE payload, when every field is in range (R180). -/
def decodeConfiguration (p : List Byte) : Option Configuration :=
  match decodeFour LineRole.ofCode p 8, decodeFour ActiveEdge.ofCode p 12,
      decodeFour levelOfCode p 20 with
  | some roles, some edges, some rests =>
    let c : Configuration :=
      { station := num1 p 0
        slots := num1 p 1
        concurrency := num1 p 2
        settle := num1 p 3
        horizon := num2 p 4
        lead := num1 p 6
        depth := num1 p 7
        roles := roles
        edges := edges
        startCode := BitVec.ofNat 16 (num2 p 16)
        releaseCode := BitVec.ofNat 16 (num2 p 18)
        rests := rests }
    if c.inRange then some c else none
  | _, _, _ => none

/-- The configuration record as it travels: 24 bytes. -/
def Configuration.encode (c : Configuration) : List Byte :=
  [byte1 c.station, byte1 c.slots, byte1 c.concurrency, byte1 c.settle] ++ bytes2 c.horizon ++
    [byte1 c.lead, byte1 c.depth] ++ c.roles.toList.map LineRole.code ++
    c.edges.toList.map ActiveEdge.code ++ halfBytes c.startCode ++ halfBytes c.releaseCode ++
    c.rests.toList.map levelCode

/-- The digest over N, C and S (R27). -/
def Configuration.digest (c : Configuration) : Half :=
  crc16 [byte1 c.slots, byte1 c.concurrency, byte1 c.settle]

/-! ### Events and frames of the order port -/

/-- An event record: 14 bytes (Section 11.6). -/
def Event.encode (e : Event) : List Byte :=
  bytes2 e.seq.toNat ++ frameBytes e.hf ++ [e.kind.code] ++ junctionBytes e.junction ++
    bytes3 e.code.toNat ++ bytes3 e.value.toNat

/-- The CRC-16 that an order frame of this kind and payload carries (R178). -/
def orderCrc (kind : Byte) (payload : List Byte) : Half :=
  crc16 (kind :: byte1 payload.length :: payload)

/-- The reply frame: status, two bytes of length, payload, CRC-16 (Section 11.3). -/
def Reply.frame (r : Reply) : List Byte :=
  let body := r.status.code :: bytes2 r.payload.length ++ r.payload
  body ++ halfBytes (crc16 body)

/-- What ODO carries from the end of the order frame on: two turnaround bytes, the reply frame, and then
bytes of value 0 for as long as OSEL stays asserted (R177). With no order taken it carries zeros alone. -/
def Exchange.odo : Exchange → List Byte
  | .replying r => [0, 0] ++ r.frame
  | .idle => []
  | .reading => []

end Sys2Proof.Machine
end

