-- ==== Sys2Proof/Machine/Flags.lean ====
section
/-! DEFINITION. The event queue, the alarm flags and ATTN (Sections 10.4 to 10.6): the one way in which any
block posts an event or raises an alarm. -/

namespace Sys2Proof.Machine

/-- The queue holds at most 32 events (R185). -/
def eventCapacity : Nat := 32

/-- HF as every block reads it: 0 while HF valid is no (R3). -/
def State.hf (s : State) : Frame := if s.timing.hfValid then s.timing.hf else 0

/-- One alarm by name. -/
def Alarms.get (a : Alarms) : AlarmName → Alarm
  | .referenceLost => a.referenceLost
  | .slotClash => a.slotClash
  | .groupMismatch => a.groupMismatch
  | .fetchHalted => a.fetchHalted
  | .promoFailed => a.promoFailed
  | .seatConflict => a.seatConflict
  | .markerOverwrite => a.markerOverwrite
  | .eventOverflow => a.eventOverflow

/-- The alarms with one of them replaced. -/
def Alarms.set (a : Alarms) (n : AlarmName) (x : Alarm) : Alarms :=
  match n with
  | .referenceLost => { a with referenceLost := x }
  | .slotClash => { a with slotClash := x }
  | .groupMismatch => { a with groupMismatch := x }
  | .fetchHalted => { a with fetchHalted := x }
  | .promoFailed => { a with promoFailed := x }
  | .seatConflict => { a with seatConflict := x }
  | .markerOverwrite => { a with markerOverwrite := x }
  | .eventOverflow => { a with eventOverflow := x }

/-- The eight alarms in code order. -/
def Alarms.toList (a : Alarms) : List Alarm :=
  [a.referenceLost, a.slotClash, a.groupMismatch, a.fetchHalted, a.promoFailed, a.seatConflict,
    a.markerOverwrite, a.eventOverflow]

/-- A raise: the flag is set, the count goes up by 1 (wrapping), the detail becomes the last (R189). -/
def Alarm.raise (a : Alarm) (detail : BitVec 24) : Alarm :=
  { flag := true, count := a.count + 1, detail := some detail }

/-- An alarm is raised in the reporting items, before any ALARM event. -/
def Reporting.raise (r : Reporting) (n : AlarmName) (detail : BitVec 24) : Reporting :=
  { r with alarms := r.alarms.set n ((r.alarms.get n).raise detail) }

/-- An event enters the queue with the next sequence number (R185), or is dropped at a full queue and
raises EVENT_OVERFLOW with its kind (R186). -/
def Reporting.post (r : Reporting) (hf : Frame) (kind : EventKind) (junction : Option JunctionNumber)
    (code value : BitVec 24) : Reporting :=
  if r.events.length < eventCapacity then
    { r with
      events := r.events ++
        [{ seq := r.nextSeq, hf := hf, kind := kind, junction := junction, code := code, value := value }]
      nextSeq := r.nextSeq + 1 }
  else r.raise .eventOverflow (detailOf kind.code)

/-- An event is posted with an HF that its rule names (R185). -/
def State.postAt (s : State) (hf : Frame) (kind : EventKind) (junction : Option JunctionNumber)
    (code value : BitVec 24) : State :=
  { s with reporting := s.reporting.post hf kind junction code value }

/-- An event is posted with the HF of the current frame (R185). -/
def State.post (s : State) (kind : EventKind) (junction : Option JunctionNumber)
    (code value : BitVec 24) : State :=
  s.postAt s.hf kind junction code value

/-- A block raises an alarm: the raise (R189), then its ALARM event, whose detail code carries the alarm
and its count after the raise, and whose junction number is present when the detail is one (R190).
EVENT_OVERFLOW is raised by `Reporting.post` alone and posts no event. -/
def State.raiseAlarm (s : State) (n : AlarmName) (detail : BitVec 24)
    (junction : Option JunctionNumber) : State :=
  let s' := { s with reporting := s.reporting.raise n detail }
  s'.post .alarm junction (detailBytes n.code (s'.reporting.alarms.get n).count 0) detail

/-- An alarm whose detail is a junction number. -/
def State.raiseForJunction (s : State) (n : AlarmName) (j : JunctionNumber) : State :=
  s.raiseAlarm n (j.setWidth 24) (some j)

/-- The level of ATTN: asserted while the queue holds an event or a flag is set (R193). -/
def State.attn (s : State) : Bool :=
  !s.reporting.events.isEmpty || s.reporting.alarms.toList.any (·.flag)

end Sys2Proof.Machine
end

