-- ==== Sys2Proof/Machine/Fetch.lean ====
section
/-! DEFINITION. The Promo Fetch Engine and the slots of the Frame Ring (Chapter 9): beginning frames,
requests and reissues, orphaned requests, the needed count, and the freeing of slots. -/

namespace Sys2Proof.Machine

/-- A promo frame has 135 blocks (Section 9.1). -/
def blocksPerFrame : Nat := 135

/-- RETRY replies and broken runs that give a frame up (R166). -/
def retryLimit : Nat := 8

/-! ### Slots (R172) -/

/-- The slots for which `p` holds become FREE and leave the ring order; the others keep their order. -/
def Ring.free (r : Ring) (p : RingSlot → Bool) : Ring :=
  let slots := r.slots.map (fun o => o.filter (fun t => !p t))
  { r with slots := slots, order := r.order.filter (fun i => (slots.getD i none).isSome) }

/-- A change of the slots for which `p` holds. -/
def Ring.update (r : Ring) (p : RingSlot → Bool) (f : RingSlot → RingSlot) : Ring :=
  { r with slots := r.slots.map (fun o => o.map (fun t => if p t then f t else t)) }

/-- The first slot for which `p` holds. -/
def Ring.find? (r : Ring) (p : RingSlot → Bool) : Option RingSlot :=
  (r.slots.filterMap id).find? p

/-- The number of the lowest FREE slot among those from `i` on. -/
def lowestFree : List (Option RingSlot) → Nat → Option Nat
  | [], _ => none
  | none :: _, i => some i
  | some _ :: rest, i => lowestFree rest (i + 1)

/-- The lowest-numbered FREE slot becomes FILLING with the junction and the clip frame index, and joins
the end of the ring order (R172). -/
def Ring.take (r : Ring) (i : Nat) (junction : JunctionNumber) (index : Nat) : Ring :=
  { r with
    slots := r.slots.set i
      (some { state := .filling, junction := junction, index := index, blocks := 0, data := [] })
    order := r.order ++ [i] }

/-- A slot that the engine is filling; there is one at most, since one request is on the link at a time. -/
def RingSlot.isFilling (t : RingSlot) : Bool := t.state == .filling

/-- Slots are freed where `p` holds. -/
def State.freeSlots (s : State) (p : RingSlot → Bool) : State :=
  { s with ring := s.ring.free p }

/-- The blocks received by the slot that is being filled. -/
def State.blocksReceived (s : State) : Nat :=
  match s.ring.find? RingSlot.isFilling with
  | some t => t.blocks
  | none => 0

/-! ### Beginning a frame (R162) -/

/-- A junction has unfetched frames (Section 9.2). -/
def FetchEntry.unfetched (e : FetchEntry) : Bool := decide (e.fetchIndex < e.needed)

/-- A change of one fetch entry. -/
def Engine.updateEntry (g : Engine) (n : JunctionNumber) (f : FetchEntry → FetchEntry) : Engine :=
  { g with entries := g.entries.map (fun e => if e.junction == n then f e else e) }

/-- The engine sends the current request for `count` blocks from block `first` on and enters REQUESTING;
run discarding is cleared (R162, R164, R165, R166, R170). -/
def Engine.send (g : Engine) (r : Request) (first count : Nat) : Engine :=
  { g with
    state := .requesting
    request := some { r with first := first, count := count }
    discarding := false
    broken := false
    expect := first }

/-- The engine begins the next frame when it is IDLE, an entry has unfetched frames and a slot is FREE
(R162); it is asked whenever one of the three may have changed. -/
def State.beginFrame (s : State) : State :=
  if s.engine.state = .idle then
    match s.engine.entries.find? FetchEntry.unfetched, lowestFree s.ring.slots 0 with
    | some e, some i =>
      let g := s.engine.updateEntry e.junction (fun x => { x with fetchIndex := x.fetchIndex + 1 })
      let g := { g with retry := 0, refetch := none, condemned := false }
      let r : Request :=
        { junction := e.junction, clip := e.clip, index := e.fetchIndex, first := 0,
          count := blocksPerFrame, orphaned := false }
      { s with
        engine := g.send r 0 blocksPerFrame
        ring := s.ring.take i e.junction e.fetchIndex }
    | _, _ => s
  else s

/-! ### The end of a request -/

/-- The current request is removed and the engine is IDLE; it may begin the next frame (R162). -/
def State.engineIdle (s : State) : State :=
  { s with engine := { s.engine with state := .idle, request := none, broken := false } }.beginFrame

/-- The end of an orphaned request: its slot is freed and its data discarded (R171). -/
def State.endOrphan (s : State) : State := (s.freeSlots RingSlot.isFilling).engineIdle

/-- The frame is given up: its slot becomes DAMAGED and a STALL event is posted (R164, R166, R170). -/
def State.damage (s : State) (cause : StallCause) : State :=
  match s.engine.request with
  | some r =>
    let s := { s with ring := s.ring.update RingSlot.isFilling (fun t => { t with state := .damaged }) }
    (s.post .stall (some r.junction) (detailOf cause.code) (detailNat r.index)).engineIdle
  | none => s.engineIdle

/-- All 135 blocks are held: the slot becomes READY (R164). -/
def State.frameReady (s : State) : State :=
  { s with ring := s.ring.update RingSlot.isFilling (fun t => { t with state := .ready }) }.engineIdle

/-- The request is sent again: the flagged block alone when the parity refetch flag is set, else from the
next undelivered block to block 134 (R164, R165, R166, R170). A frame that holds its 135 blocks has no block to
be asked for, and it becomes READY (R164; after a broken run or a resume, log 15). -/
def State.reissue (s : State) : State :=
  match s.engine.request with
  | some r =>
    match s.engine.refetch with
    | some b => { s with engine := s.engine.send r b 1 }
    | none =>
      if s.blocksReceived < blocksPerFrame then
        { s with engine := s.engine.send r s.blocksReceived (blocksPerFrame - s.blocksReceived) }
      else s.frameReady
  | none => s

/-- A RETRY reply, or a broken run that has ended, counts; below 8 the engine backs off, at 8 the frame is
given up (R166). -/
def State.countRetry (s : State) (broken : Bool) : State :=
  if s.engine.retry + 1 < retryLimit then
    { s with engine := { s.engine with state := .backoff, retry := s.engine.retry + 1, broken := broken } }
  else
    { s with engine := { s.engine with retry := s.engine.retry + 1 } }.damage .retryLimit

/-- Whether the current request is orphaned. -/
def State.orphaned (s : State) : Bool :=
  match s.engine.request with
  | some r => r.orphaned
  | none => false

/-- A run that broke the protocol has ended: it is treated as a RETRY reply, unless the request is orphaned
(R171) or the frame condemned (R166). -/
def State.endBrokenRun (s : State) : State :=
  if s.orphaned then s.endOrphan
  else if s.engine.condemned then s.damage .parity
  else s.countRetry true

/-- A run that kept the protocol has ended, after its last requested block or by an earlier DISCONNECT
(R164, R165), unless the request is orphaned (R171). -/
def State.endKeptRun (s : State) : State :=
  if s.orphaned then s.endOrphan
  else if s.engine.condemned then s.damage .parity
  else s.reissue

/-- Whether the run has carried the last requested block (R159). -/
def State.runComplete (s : State) : Bool :=
  match s.engine.request with
  | some r => s.engine.expect == r.first + r.count
  | none => false

/-! ### Orphaned requests (R171) -/

/-- The current request becomes orphaned. On the link it runs to its end; in BACKOFF it ends at once; in
HALTED its slot is freed at once (R168, R171). -/
def State.orphanRequest (s : State) : State :=
  match s.engine.request with
  | none => s
  | some r =>
    if r.orphaned then s
    else
      let marked := { s with engine := { s.engine with request := some { r with orphaned := true } } }
      match s.engine.state with
      | .halted => marked.freeSlots RingSlot.isFilling
      | .backoff =>
        { (s.freeSlots RingSlot.isFilling) with
          engine := { s.engine with state := .idle, request := none, broken := false } }
      | .idle => marked
      | .requesting => marked
      | .receiving => marked

/-- The current request becomes orphaned when `p` holds of it. -/
def State.orphanWhere (s : State) (p : Request → Bool) : State :=
  match s.engine.request with
  | some r => if p r then s.orphanRequest else s
  | none => s

/-! ### The needed count (R161) -/

/-- The needed count of a junction falls to `n`, if it was above: the fetch index follows, READY and DAMAGED
slots at or above it are freed, a request at or above it becomes orphaned, and the engine looks for a frame
to begin (R161, R162). -/
def State.limitNeeded (s : State) (j : JunctionNumber) (n : Nat) : State :=
  match s.engine.entries.find? (fun e => e.junction == j) with
  | none => s
  | some e =>
    let m := min e.needed n
    let g := s.engine.updateEntry j (fun x => { x with needed := m, fetchIndex := min x.fetchIndex m })
    let s := { s with engine := g }
    let s := s.freeSlots (fun t => t.junction == j && decide (m ≤ t.index) &&
      (t.state == .ready || t.state == .damaged))
    (s.orphanWhere (fun r => r.junction == j && decide (m ≤ r.index))).beginFrame

/-- The needed count of a junction becomes its fetch index, so that no further frame is begun (R161). -/
def State.stopFetching (s : State) (j : JunctionNumber) : State :=
  match s.engine.entries.find? (fun e => e.junction == j) with
  | none => s
  | some e => s.limitNeeded j e.fetchIndex

/-- The entries in the order of the table (R161, R162). -/
def entriesInOrder (order : List JunctionNumber) (es : List FetchEntry) : List FetchEntry :=
  order.filterMap (fun n => es.find? (fun e => e.junction == n))

/-- A record has become PRIMED: a fetch entry is created for it (R161), in table order. -/
def State.createEntry (s : State) (r : Junction) : State :=
  let e : FetchEntry :=
    { junction := r.number, clip := r.fields.clipOf r.promo,
      needed := r.fields.rin + r.fields.hold + r.fields.rout, fetchIndex := 0 }
  { s with engine :=
      { s.engine with entries := entriesInOrder s.numbers (s.engine.entries ++ [e]) } }.beginFrame

/-- A record has ended: its fetch entry is removed, its slots are freed but for one whose request is still on
the link, and a request in flight for it becomes orphaned (R161, R171, R176). -/
def State.dropFetch (s : State) (n : JunctionNumber) : State :=
  let s := { s with engine :=
    { s.engine with entries := s.engine.entries.filter (fun e => e.junction != n) } }
  let s := s.freeSlots (fun t => t.junction == n && !t.isFilling)
  s.orphanWhere (fun r => r.junction == n)

/-! ### Blocks of a run (R159, R163) -/

/-- The exclusive-or of the header word and every payload word (Section 9.1). -/
def parityOf (header : LinkWord) (payload : List LinkWord) : LinkWord :=
  payload.foldl (fun a w => a ^^^ w) header

/-- A block is delivered into the slot that is being filled. -/
def RingSlot.deliver (payload : List LinkWord) (t : RingSlot) : RingSlot :=
  { t with blocks := t.blocks + 1, data := t.data ++ [payload] }

/-- A block that keeps the protocol is judged as it ends (R163). -/
def State.judgeBlock (s : State) (index : Nat) (good : Bool) (payload : List LinkWord) : State :=
  let g := { s.engine with state := .receiving, expect := index + 1 }
  if g.discarding then { s with engine := g }
  else if good then
    { s with
      engine := { g with
        retry := 0
        refetch := if g.refetch = some index then none else g.refetch }
      ring := s.ring.update RingSlot.isFilling (RingSlot.deliver payload) }
  else if g.refetch.isNone then
    { s with engine := { g with refetch := some index, discarding := true } }
  else { s with engine := { g with condemned := true, discarding := true } }

/-- The run breaks the protocol at a block: nothing more is stored from it, and the words up to its END or
DISCONNECT are discarded (R159; log 14). -/
def State.breakRun (s : State) : State :=
  { s with engine := { s.engine with state := .receiving, broken := true, discarding := true } }

/-- A block arrives for the request on the link (R159, R163). -/
def State.receiveBlock (s : State) (index : Nat) (good : Bool) (payload : List LinkWord) : State :=
  match s.engine.request with
  | some r =>
    if s.engine.broken then s
    else if index = s.engine.expect ∧ index < r.first + r.count then s.judgeBlock index good payload
    else s.breakRun
  | none => s

end Sys2Proof.Machine
end

