-- ==== Sys2Proof/Machine/Table.lean ====
section
/-! DEFINITION. The Junction Table's own rules (Chapter 3): the checks of a field set, overlap and lateness,
the end of a record (R40), the lapse of a pending amendment (R88), and the endings of a time jump (R53). -/

namespace Sys2Proof.Machine

/-- The table holds at most 16 records (R38). -/
def tableCapacity : Nat := 16

/-- The planning reach, in frames (R36). -/
def planningReach : Nat := 4194304

/-! ### A field set in range and long enough (R36) -/

/-- The marker line of a source. -/
def MarkerSource.line? : MarkerSource → Option (Fin 4)
  | .mk0 => some 0
  | .mk1 => some 1
  | .mk2 => some 2
  | .mk3 => some 3
  | .inBand => none

/-- A source that a MARKED junction may name: a line must have role START, IN_BAND is not checked (R36). -/
def State.sourceAllowed (s : State) (m : MarkerSource) : Bool :=
  match m.line?, s.config with
  | some i, some c => c.roles.get i == .start
  | some _, none => false
  | none, _ => true

/-- The conditions of R36 on trigger, marker source, early tolerance and timeout fallback. -/
def State.triggerInRange (s : State) (f : FieldSet) : Bool :=
  match f.trigger, f.source, f.fallback with
  | .timed, none, none => f.early == 0
  | .marked, some m, some _ => s.sourceAllowed m
  | .timed, _, _ => false
  | .marked, _, _ => false

/-- A clip length in range (R36). -/
def Promo.inRange (p : Promo) : Bool := decide (1 ≤ p.length) && decide (p.length ≤ 16777215)

/-- The planning reach is respected: the claim end is at most 4,194,304 frames ahead of HF, or behind it (R36). R1
places an end equal to HF neither ahead nor behind, and the model takes it as within the reach (log 36); an end exactly
2^23 frames away is out of it (log 12). -/
def withinReach (hf claimEnd : Frame) : Bool :=
  decide ((claimEnd - hf).toNat ≤ planningReach) || behind claimEnd hf

/-- A field set is in range (R36). -/
def State.fieldsInRange (s : State) (n : JunctionNumber) (f : FieldSet) : Bool :=
  n != 0 && s.triggerInRange f &&
    decide (f.early ≤ 250) && decide (f.rin ≤ 250) && decide (f.rout ≤ 250) &&
    decide (1 ≤ f.hold) && decide (f.hold ≤ 65535) &&
    decide (1 ≤ f.minHold) && decide (f.minHold ≤ f.hold) &&
    f.primary.inRange && f.alternate.all Promo.inRange &&
    decide (f.cues.length ≤ 4) && f.cues.all (fun c => decide (c.offset ≤ 65535)) &&
    f.layout.all Layout.valid &&
    withinReach s.hf f.claimEnd

/-- A field set is long enough (R36). -/
def FieldSet.longEnough (f : FieldSet) : Bool :=
  decide (f.rin + f.hold + f.rout ≤ f.primary.length) &&
    f.alternate.all (fun a => decide (f.rin + f.hold + f.rout ≤ a.length))

/-! ### Overlap and lateness (R39, R41, R44) -/

/-- The claim intervals of two field sets intersect. -/
def FieldSet.overlaps (f g : FieldSet) : Bool :=
  intersects f.claimStart f.claimEnd g.claimStart g.claimEnd

/-- A new field set meets what a record occupies: its claim interval, and its secondary interval while an
amendment is pending (R39). -/
def Junction.occupies (r : Junction) (f : FieldSet) : Bool :=
  f.overlaps r.fields || r.pending.any (fun a => f.overlaps a.fields)

/-- The commit frame is not ahead of HF, or the claim start is behind that of a record of `others` that is
PRIMED or on air (R41 check 7, R44 check 7). -/
def State.tooLate (s : State) (f : FieldSet) (others : List Junction) : Bool :=
  !ahead (f.commitFrame s.lead) s.hf ||
    others.any (fun r => r.state.isCommitted && behind f.claimStart r.fields.claimStart)

/-! ### The end of a record (R40) -/

/-- The detail code of JUNCTION_END: the outcome, then the reason (Section 11.6). -/
def Ending.code (e : Ending) : BitVec 24 :=
  detailBytes e.outcome.code (codeOr0 Reason.code e.reason) 0

/-- The detail value of JUNCTION_END: the actual first frame when the junction went on air, else the commit
frame (R40). -/
def Junction.endValue (r : Junction) (lead : Nat) : Frame :=
  match r.actualFirst with
  | some f => f
  | none => r.fields.commitFrame lead

/-- The JUNCTION_END event of a record with its outcome recorded (R40). -/
def State.postEnd (s : State) (r : Junction) : State :=
  match r.ending with
  | some e => s.post .junctionEnd (some r.number) e.code (r.endValue s.lead)
  | none => s

/-- A record ends: the outcome is recorded, it leaves the table with its claims, its slots are freed and its
fetch entry removed, and JUNCTION_END is posted (R40, R76, R161, R176). A record that is not in the table has
already ended, and nothing happens. The engine looks for a frame to begin after each ending, also between two
endings of one order or of one time jump (R162; log 32). -/
def State.endRecord (s : State) (n : JunctionNumber) (e : Ending) : State :=
  match s.junction? n with
  | none => s
  | some r =>
    let r := { r with ending := some e }
    let s := { s with table := removeNumber n s.table }
    let s := (s.dropClaims n).dropFetch n
    (s.postEnd r).beginFrame

/-- The records whose numbers are listed end, in that order; the engine may begin a frame between two of these
endings (log 32). -/
def State.endRecords (s : State) (e : Ending) : List JunctionNumber → State
  | [] => s
  | n :: ns => (s.endRecord n e).endRecords e ns

/-- The numbers of the records for which `p` holds, in table order. -/
def State.numbersWhere (s : State) (p : Junction → Bool) : List JunctionNumber :=
  (s.table.filter p).map (·.number)

/-! ### The lapse of a pending amendment (R88) -/

/-- A pending amendment lapses: it is removed from the record, its secondary claim is dropped, and
AMEND_LAPSED is posted with its cause (R88, R47). -/
def State.lapse (s : State) (n : JunctionNumber) (cause : LapseCause) : State :=
  let s := s.updateJunction n (fun r => { r with pending := none })
  (s.dropClaim n .secondary).post .amendLapsed (some n) (detailOf cause.code) 0

/-- The lapse of the pending amendments of the listed records, in that order. -/
def State.lapseAll (s : State) (cause : LapseCause) : List JunctionNumber → State
  | [] => s
  | n :: ns => (s.lapse n cause).lapseAll cause ns

/-! ### Time jumps (R53) -/

/-- A record that a time jump ends: not on air, with its commit frame not ahead of the new HF (R53). -/
def State.missedCommit (s : State) (r : Junction) : Bool :=
  !r.state.isOnAir && !ahead (r.fields.commitFrame s.lead) s.hf

/-- What a record ended by a time jump ends with (R53). -/
def jumpEnding (st : RecordState) : Ending :=
  if st = .primed then { outcome := .abandoned, reason := some .timeJump }
  else { outcome := .declined, reason := some .timeJump }

/-- The listed records end by the time jump, each by its own state; the engine may begin a frame between two of
these endings (log 32). -/
def State.jumpEnd (s : State) : List Junction → State
  | [] => s
  | r :: rs => (s.endRecord r.number (jumpEnding r.state)).jumpEnd rs

/-- The Junction Table's action at a boundary that carries a time jump, in table order (R53). -/
def State.jumpEndings (s : State) : State := s.jumpEnd (s.table.filter s.missedCommit)

end Sys2Proof.Machine
end

