-- ==== Sys2Proof/Machine/Layouts.lean ====
section
/-! DEFINITION. The Layout Store (Sections 8.2 to 8.4): staging and loads. -/

namespace Sys2Proof.Machine

/-- The other slot. -/
def LayoutSlot.other : LayoutSlot → LayoutSlot
  | .l0 => .l1
  | .l1 => .l0

/-- The layout in a slot. -/
def LayoutStore.get (st : LayoutStore) : LayoutSlot → Layout
  | .l0 => st.slot0
  | .l1 => st.slot1

/-- A layout written into a slot. -/
def LayoutStore.write (st : LayoutStore) (slot : LayoutSlot) (l : Layout) : LayoutStore :=
  match slot with
  | .l0 => { st with slot0 := l }
  | .l1 => { st with slot1 := l }

/-- The slot that the active pointer does not name (Section 8.2). -/
def LayoutStore.inactive (st : LayoutStore) : LayoutSlot := st.active.other

/-- The active layout. -/
def LayoutStore.activeLayout (st : LayoutStore) : Layout := st.get st.active

/-- A layout is staged: written into the inactive slot, with its load mode (R144). -/
def LayoutStore.stage (st : LayoutStore) (l : Layout) (m : LoadMode) : LayoutStore :=
  { st.write st.inactive l with staged := some m }

/-- A load: the pointer moves to the other slot and nothing is staged (R143). -/
def LayoutStore.load (st : LayoutStore) : LayoutStore :=
  { st with active := st.active.other, staged := none }

/-- A load with its LAYOUT_LOADED event: the cause, the slot now active, and the junction (R145 to R148). -/
def State.loadLayout (s : State) (cause : Byte) (junction : Option JunctionNumber) : State :=
  let s := { s with layouts := s.layouts.load }
  s.post .layoutLoaded junction (detailOf cause) (detailOf s.layouts.active.code)

/-- The load of a layout staged AT_FRAME, at a frame boundary (R145). -/
def State.loadAtFrame (s : State) : State :=
  if s.layouts.staged = some .atFrame then s.loadLayout LoadMode.atFrame.code s.sequencer.onAir
  else s

/-- The ramp-end notice that a junction gives (R146). -/
def State.rampEndNotice (s : State) (n : JunctionNumber) : State :=
  if s.layouts.staged = some .atRampEnd then s.loadLayout LoadMode.atRampEnd.code (some n)
  else s

/-- A staged layout that a junction's own layout overwrites is dropped (R148). -/
def State.dropStaged (s : State) (n : JunctionNumber) : State :=
  match s.layouts.staged with
  | some m =>
    s.post .layoutDropped (some n) (detailOf m.code) (detailOf s.layouts.inactive.code)
  | none => s

/-- The Layout Store's part of a start: the junction's own layout is written and loaded (R148), or a layout
staged AT_JUNCTION is loaded (R147). -/
def State.loadAtStart (s : State) (n : JunctionNumber) (own : Option Layout) : State :=
  match own with
  | some l =>
    let s := s.dropStaged n
    let s := { s with layouts := s.layouts.write s.layouts.inactive l }
    s.loadLayout junctionLoadCode (some n)
  | none =>
    if s.layouts.staged = some .atJunction then s.loadLayout LoadMode.atJunction.code (some n)
    else s

end Sys2Proof.Machine
end

