-- ==== Sys2Proof/Machine/Sequencer.lean ====
section
/-! DEFINITION. The Junction Sequencer (Chapter 7) and the Frame Ring's presentation (Sections 9.5, R173 to
R176): starts, phases, early release, the end of a junction, cue points, and the ring's advance. -/

namespace Sys2Proof.Machine

/-! ### Cue lines (Section 7.8) -/

/-- The level that a line is not at. -/
def otherLevel : Level → Level
  | .low => .high
  | .high => .low

/-- A line's level and pulse return, set together. -/
def Sequencer.drive (q : Sequencer) (i : Fin 4) (l : Level) (pulse : Bool) : Sequencer :=
  { q with lines := q.lines.set i l, pulse := q.pulse.set i pulse }

/-- A cue point's action on its line (R135); `rest` is the line's rest level. -/
def Sequencer.act (q : Sequencer) (rest : Level) (i : Fin 4) (a : CueAction) : Sequencer :=
  match a with
  | .setActive => q.drive i (otherLevel rest) false
  | .clear => q.drive i rest false
  | .toggle => q.drive i (otherLevel (q.lines.get i)) false
  | .pulse => q.drive i (otherLevel rest) true

/-- The cue points whose offset is `j` are applied, in list order (R134). -/
def State.applyCues (s : State) (j : Nat) : List CuePoint → State
  | [] => s
  | c :: cs =>
    if c.offset = j then
      ({ s with sequencer := s.sequencer.act (s.restLevel c.line) c.line c.action }).applyCues j cs
    else s.applyCues j cs

/-- One line goes to its rest level when its pulse return is set (R116). -/
def State.returnLine (s : State) (i : Fin 4) : State :=
  if s.sequencer.pulse.get i then
    { s with sequencer := s.sequencer.drive i (s.restLevel i) false }
  else s

/-- The pulse returns of an advance (R116). -/
def State.pulseReturns (s : State) : State :=
  (((s.returnLine 0).returnLine 1).returnLine 2).returnLine 3

/-- The rest levels of the four lines. -/
def State.restLevels (s : State) : Four Level :=
  ⟨s.restLevel 0, s.restLevel 1, s.restLevel 2, s.restLevel 3⟩

/-! ### Requests for early release (R128, R130) -/

/-- A request that is noted and has no other effect (R130). -/
def State.noteRelease (s : State) (n : JunctionNumber) (why : Reason) : State :=
  s.post .releaseNoted (some n) (detailOf why.code) (detailNat s.sequencer.frameCounter)

/-- A request for early release of the on-air junction: the first reason stands, a later request is noted
(R128, R130). With no junction on air it does not reach the sequencer. -/
def State.requestRelease (s : State) (why : Reason) : State :=
  match s.sequencer.onAir with
  | none => s
  | some n =>
    if s.sequencer.reason.isNone then
      { s with sequencer := { s.sequencer with reason := some why } }
    else s.noteRelease n why

/-! ### The end of a junction (R132, R133) -/

/-- The outcome that a release reason gives (R133). -/
def endingOf (why : Reason) : Ending :=
  if why = .ordinary then { outcome := .completed, reason := none }
  else { outcome := .releasedEarly, reason := some why }

/-- The sequencer with no junction on air, its lines at rest (R132, R136). Its first frame and actual hold are
absent, as after reset (log 33). -/
def State.sequencerAtRest (s : State) : Sequencer :=
  { Sequencer.reset with lines := s.restLevels }

/-- The ring with no junction on air; its slots and their order stay (R176). -/
def Ring.offAir (r : Ring) : Ring := { Ring.reset with slots := r.slots, order := r.order }

/-- The on-air junction ends: the lines go to rest, the sequencer and the ring have no junction on air, the
output returns to pass-through, PROMO_COUNTS is posted, and the record leaves the table with the outcome of
its release reason (R132, R133, R149, R176). -/
def State.endOnAir (s : State) : State :=
  match s.sequencer.onAir, s.sequencer.reason with
  | some n, some why =>
    let drops := s.ring.drops
    let slips := s.ring.slips
    let s := { s with
      sequencer := s.sequencerAtRest
      ring := s.ring.offAir
      compositor := .passThrough }
    (s.post .promoCounts (some n) (detailNat drops) (detailNat slips)).endRecord n (endingOf why)
  | _, _ => s

/-! ### Release (R126 to R129) -/

/-- The record's claim ends with the last release frame (R96). -/
def State.shortenClaim (s : State) (n : JunctionNumber) (stop : Frame) : State :=
  s.updateClaim n .record (fun c => { c with stop := stop })

/-- The counter that a release loads: Rout from HOLD, and floor(p × Rout / Rin) from SQUEEZE_IN
(R128, R129). -/
def releaseLoad (q : Sequencer) (f : FieldSet) : Nat :=
  if q.phase = .squeezeIn then q.ramp * f.rout / f.rin else f.rout

/-- The release begins at an advance, with the reason that has been set (R128). When its counter is loaded
as 0 the junction ends at this boundary. -/
def State.beginRelease (s : State) (r : Junction) (why : Reason) : State :=
  let left := releaseLoad s.sequencer r.fields
  let s := { s with sequencer :=
    { s.sequencer with
      phase := .release, begun := true, ramp := 0, holdLeft := 0, releaseLeft := left } }
  let s := s.updateJunction r.number (fun x => { x with state := .release })
  let s := if why = .ordinary then s else s.shortenClaim r.number (addFrames s.hf left)
  let s := s.limitNeeded r.number (s.ring.shown + left + 1)
  let s := s.post .releaseBegun (some r.number) (detailOf why.code) (detailNat left)
  if left = 0 then s.endOnAir else s

/-! ### The advance (R116, R125 to R127) -/

/-- SQUEEZE_IN with no release reason: the ramp steps, or the hold begins (R125). -/
def State.stepSqueeze (s : State) (r : Junction) : State :=
  let q := s.sequencer
  if q.ramp < r.fields.rin then
    let s := { s with sequencer := { q with ramp := q.ramp + 1 } }
    if q.ramp + 1 = r.fields.rin then s.rampEndNotice r.number else s
  else
    let s := { s with sequencer := { q with phase := .hold, ramp := 0, holdLeft := q.hold.getD 0 } }
    s.updateJunction r.number (fun x => { x with state := .hold })

/-- HOLD with no release reason: the hold counter decreases, and at 0 the ordinary release begins (R126). -/
def State.stepHold (s : State) (r : Junction) : State :=
  let q := s.sequencer
  if q.holdLeft ≤ 1 then
    ({ s with sequencer := { q with reason := some .ordinary } }).beginRelease r .ordinary
  else { s with sequencer := { q with holdLeft := q.holdLeft - 1 } }

/-- RELEASE: the release counter decreases, and at 0 the junction ends (R127). -/
def State.stepRelease (s : State) : State :=
  let q := s.sequencer
  let s := { s with sequencer := { q with releaseLeft := q.releaseLeft - 1 } }
  if q.releaseLeft ≤ 1 then s.endOnAir else s

/-- The step of the phase counters, or the beginning of a release that has been asked for (R125 to R129). -/
def State.stepPhase (s : State) (r : Junction) : State :=
  match s.sequencer.phase, s.sequencer.reason with
  | .squeezeIn, none => s.stepSqueeze r
  | .squeezeIn, some why => s.beginRelease r why
  | .hold, none => s.stepHold r
  | .hold, some why => s.beginRelease r why
  | .release, _ => s.stepRelease
  | .none, _ => s

/-- Stage 1 of the boundary operation: the on-air junction advances by one frame, unless it was started at
this boundary already (R116). -/
def State.advance (s : State) : State :=
  match s.sequencer.onAir with
  | none => s
  | some n =>
    if s.sequencer.fresh then { s with sequencer := { s.sequencer with fresh := false } }
    else
      match s.junction? n with
      | none => s
      | some r =>
        let s := s.pulseReturns
        let j := s.sequencer.frameCounter + 1
        let s := { s with sequencer := { s.sequencer with frameCounter := j } }
        (s.applyCues j r.fields.cues).stepPhase r

/-! ### Starting a junction (R117 to R124) -/

/-- The ring holds clip frame 0 of the junction in state READY (R122, R173). -/
def Ring.promoReady (r : Ring) (n : JunctionNumber) : Bool :=
  (r.find? (fun t => t.junction == n && t.index == 0 && t.state == .ready)).isSome

/-- The hold that a start with first frame F is given (R123, R124). -/
def FieldSet.actualHold (f : FieldSet) (first : Frame) : Nat :=
  if ahead first f.snom then f.hold - (first - f.snom).toNat else f.hold

/-- The ring presents the junction: the slot of index 0 is SHOWN (R173). -/
def Ring.present (r : Ring) (n : JunctionNumber) (fresh : Bool) : Ring :=
  { r.update (fun t => t.junction == n && t.index == 0) (fun t => { t with state := .shown }) with
    onAir := some n, shown := 0, next := 1, consecutive := 0, slips := 0, drops := 0,
    frozen := false, fresh := fresh }

/-- The sequencer at a start (R123). -/
def Sequencer.begin (q : Sequencer) (n : JunctionNumber) (f : FieldSet) (first : Frame)
    (fresh : Bool) : Sequencer :=
  { q with
    onAir := some n
    phase := if f.rin = 0 then .hold else .squeezeIn
    first := some first
    hold := some (f.actualHold first)
    frameCounter := 0
    ramp := if f.rin = 0 then 0 else 1
    holdLeft := if f.rin = 0 then f.actualHold first else 0
    releaseLeft := 0
    reason := none
    begun := false
    fresh := fresh }

/-- The record at a start (R123). -/
def Junction.begin (r : Junction) (first : Frame) : Junction :=
  { r with
    state := if r.fields.rin = 0 then .hold else .squeezeIn
    actualFirst := some first
    actualHold := some (r.fields.actualHold first) }

/-- The record claim goes on air with the interval of the actual run (R95). -/
def OwnClaim.goOnAir (f : FieldSet) (first : Frame) (c : OwnClaim) : OwnClaim :=
  { c with
    cls := .onAir
    start := first
    stop := addFrames first (f.rin + f.actualHold first + f.rout)
    settle := none }

/-- Where in a boundary a start is made: whether the sequencer's operation and the ring's advance are still to
come (R118, R173), and whether the store's events precede JUNCTION_STARTED (log 16). -/
structure StartContext where
  beforeSequencer : Bool
  beforeRing : Bool
  storeFirst : Bool
  deriving DecidableEq, Repr

/-- The store's part of a start, and the ramp-end notice that a start with Rin 0 or 1 gives after it
(R123, R147, R148). -/
def State.startLayouts (s : State) (r : Junction) : State :=
  let s := s.loadAtStart r.number r.fields.layout
  if r.fields.rin ≤ 1 then s.rampEndNotice r.number else s

/-- The JUNCTION_STARTED event (R123). -/
def State.reportStart (s : State) (r : Junction) (first : Frame) (kind : StartKind) : State :=
  s.postAt first .junctionStarted (some r.number) (detailOf kind.code)
    (detailNat (r.fields.actualHold first))

/-- The sequencer, the ring, the Compositor and the record at a start (R123, R149, R173). -/
def State.putOnAir (s : State) (x : StartContext) (r : Junction) (first : Frame) : State :=
  let s := { s with
    sequencer := s.sequencer.begin r.number r.fields first x.beforeSequencer
    ring := s.ring.present r.number x.beforeRing
    compositor := .junction }
  s.updateJunction r.number (fun y => y.begin first)

/-- A start that has its promo is made (R123). -/
def State.makeStart (s : State) (x : StartContext) (r : Junction) (first : Frame) (kind : StartKind) :
    State :=
  let s := (s.putOnAir x r first).applyCues 0 r.fields.cues
  let s := s.updateClaim r.number .record (OwnClaim.goOnAir r.fields first)
  let s := s.limitNeeded r.number (r.fields.rin + r.fields.actualHold first + r.fields.rout)
  if x.storeFirst then (s.startLayouts r).reportStart r first kind
  else (s.reportStart r first kind).startLayouts r

/-- A start is taken: without clip frame 0 READY the record ends ABANDONED(PROMO_NOT_READY) (R122). -/
def State.takeStart (s : State) (x : StartContext) (r : Junction) (first : Frame) (kind : StartKind) :
    State :=
  if s.ring.promoReady r.number then s.makeStart x r first kind
  else s.endRecord r.number { outcome := .abandoned, reason := some .promoNotReady }

/-- The start of a PRIMED record that falls due by HF alone: TIMED at Snom (R117), LATE_START at the latest
start (R119). -/
def Junction.startDue (r : Junction) (hf : Frame) : Option StartKind :=
  match r.fields.trigger, r.fields.fallback with
  | .timed, _ => if hf = r.fields.snom then some .timed else none
  | .marked, some .lateStart => if hf = r.fields.latestStart then some .lateStart else none
  | .marked, _ => none

/-- The marker timeout of a PRIMED record with fallback ABANDON falls due (R120). -/
def Junction.timeoutDue (r : Junction) (hf : Frame) : Bool :=
  r.fields.trigger == .marked && r.fields.fallback == some .abandon &&
    hf == r.fields.latestStart + 1

/-- Stage 2 for one PRIMED record: a start that falls due with a junction on air is not made and the record
ends (R121); the timeout is tested when no junction was on air after stage 1 (R116; log 20). -/
def State.testStart (s : State) (x : StartContext) (wasIdle : Bool) (r : Junction) : State :=
  match r.startDue s.hf with
  | some kind =>
    if s.sequencer.onAir.isNone then s.takeStart x r s.hf kind
    else s.endRecord r.number { outcome := .abandoned, reason := some .timeJump }
  | none =>
    if wasIdle && r.timeoutDue s.hf then
      s.endRecord r.number { outcome := .abandoned, reason := some .markerTimeout }
    else s

/-- Stage 2 for the listed records, in table order. -/
def State.testStarts (s : State) (x : StartContext) (wasIdle : Bool) : List Junction → State
  | [] => s
  | r :: rs => (s.testStart x wasIdle r).testStarts x wasIdle rs

/-- The PRIMED records, in table order. -/
def State.primed (s : State) : List Junction := s.table.filter (fun r => r.state == .primed)

/-- The sequencer's boundary operation: advance, then start tests (R116). -/
def State.sequencerBoundary (s : State) (x : StartContext) : State :=
  let s := s.advance
  s.testStarts { x with beforeSequencer := false } s.sequencer.onAir.isNone s.primed

/-! ### The Frame Ring's advance (R174, R175) -/

/-- The promo has failed: the shown frame is frozen, PROMO_FAILED is raised, no further frame is begun, and
an early release is requested, in this order (R175). The alarm's event stands before a RELEASE_NOTED event
(R185; log 16). -/
def State.promoFailure (s : State) (n : JunctionNumber) : State :=
  let s := { s with ring := { s.ring with frozen := true } }
  (((s.raiseForJunction .promoFailed n).stopFetching n).requestRelease .promoFailure)

/-- The next frame is READY: it becomes SHOWN and the slot that was SHOWN is freed (R174). -/
def State.showNext (s : State) (n : JunctionNumber) : State :=
  let r := s.ring.free (fun t => t.state == .shown)
  let r := r.update (fun t => t.junction == n && t.index == r.next) (fun t => { t with state := .shown })
  { s with ring := { r with shown := r.next, next := r.next + 1, consecutive := 0 } }.beginFrame

/-- The next frame is DAMAGED: a drop (R174). -/
def State.dropNext (s : State) (n : JunctionNumber) : State :=
  let r := s.ring.free (fun t => t.junction == n && t.index == s.ring.next)
  { s with ring := { r with next := r.next + 1, drops := countHeld r.drops, consecutive := 0 } }.beginFrame

/-- The next frame is not there: a slip, and at the sixth in a row the promo has failed (R174, R175). -/
def State.slip (s : State) (n : JunctionNumber) : State :=
  let s := { s with ring :=
    { s.ring with slips := countHeld s.ring.slips, consecutive := s.ring.consecutive + 1 } }
  if 6 ≤ s.ring.consecutive then s.promoFailure n else s

/-- The ring's advance at a frame boundary (R174). -/
def State.ringAdvance (s : State) : State :=
  match s.ring.onAir with
  | none => s
  | some n =>
    if s.ring.frozen then s
    else if s.ring.fresh then { s with ring := { s.ring with fresh := false } }
    else
      match s.ring.find? (fun t => t.junction == n && t.index == s.ring.next) with
      | some t =>
        match t.state with
        | .ready => s.showNext n
        | .damaged => s.dropNext n
        | .filling => s.slip n
        | .shown => s
      | none => s.slip n

end Sys2Proof.Machine
end

