-- ==== Sys2Proof/Machine/Link.lean ====
section
/-! DEFINITION. The words of the store link and its two limits (Chapter 9): what each does in each engine
state (R158 to R171). A word that arrives in IDLE, BACKOFF or HALTED belongs to no request and is
discarded (R158). -/

namespace Sys2Proof.Machine

/-! ### Blocks, END and DISCONNECT -/

/-- STORE_BLOCK (R159, R163): a block of the run on the link is judged. -/
def execStoreBlock (index : Nat) (header : LinkWord) (payload : List LinkWord) (parity : LinkWord)
    (s : State) : Host.Outcome State Fault Refusal :=
  match s.engine.state with
  | .requesting => .next (s.receiveBlock index (parityOf header payload == parity) payload)
  | .receiving => .next (s.receiveBlock index (parityOf header payload == parity) payload)
  | .idle => .next s
  | .backoff => .next s
  | .halted => .next s

/-- STORE_END (R159, R164): an END before any block, or before the last requested block, breaks the
protocol and ends the run. -/
def execStoreEnd (s : State) : Host.Outcome State Fault Refusal :=
  match s.engine.state with
  | .requesting => .next s.endBrokenRun
  | .receiving =>
    if s.engine.broken || !s.runComplete then .next s.endBrokenRun else .next s.endKeptRun
  | .idle => .next s
  | .backoff => .next s
  | .halted => .next s

/-- STORE_DISCONNECT (R159, R164, R165): before any block it breaks the protocol, after the last requested
block it is taken as END, and after an earlier block the request is reissued. -/
def execStoreDisconnect (s : State) : Host.Outcome State Fault Refusal :=
  match s.engine.state with
  | .requesting => .next s.endBrokenRun
  | .receiving =>
    if s.engine.broken then .next s.endBrokenRun else .next s.endKeptRun
  | .idle => .next s
  | .backoff => .next s
  | .halted => .next s

/-! ### RETRY, backoff and ABORT -/

/-- A RETRY or ABORT word in a run: it breaks the protocol and ends the run (R159). In a run that is broken
already the words up to its END or DISCONNECT are discarded (R159; log 14). -/
def State.wordInRun (s : State) : State := if s.engine.broken then s else s.endBrokenRun

/-- A RETRY reply (R166, R171). -/
def State.retryReply (s : State) : State := if s.orphaned then s.endOrphan else s.countRetry false

/-- STORE_RETRY (R166). -/
def execStoreRetry (s : State) : Host.Outcome State Fault Refusal :=
  match s.engine.state with
  | .requesting => .next s.retryReply
  | .receiving => .next s.wordInRun
  | .idle => .next s
  | .backoff => .next s
  | .halted => .next s

/-- The same request is sent again (R166). -/
def State.resend (s : State) : State :=
  match s.engine.request with
  | some r => { s with engine := s.engine.send r r.first r.count }
  | none => s

/-- BACKOFF_EXPIRY (R166): after a RETRY word the same request, after a broken run the flagged block or the
blocks not yet delivered. Outside BACKOFF it does not occur (log 3). -/
def execBackoffExpiry (s : State) : Host.Outcome State Fault Refusal :=
  match s.engine.state with
  | .backoff => if s.engine.broken then .next s.reissue else .next s.resend
  | .idle => .next s
  | .requesting => .next s
  | .receiving => .next s
  | .halted => .next s

/-- The current request is over and removed; its slot is freed and the engine is IDLE. -/
def State.removeRequest (s : State) : State :=
  let s := s.freeSlots RingSlot.isFilling
  { s with engine := { s.engine with state := .idle, request := none, broken := false } }

/-- The fetch entry of a junction that starts again on its alternate promo (R169). -/
def restartEntry (n : JunctionNumber) (clip : BitVec 32) (needed : Nat) : FetchEntry :=
  { junction := n, clip := clip, needed := needed, fetchIndex := 0 }

/-- A PRIMED junction switches to its alternate promo (R169). -/
def State.switchStore (s : State) (r : Junction) (alt : Promo) : State :=
  let n := r.number
  let s := s.removeRequest
  let s := s.updateJunction n (fun x => { x with promo := .alternate })
  let s := s.freeSlots (fun t => t.junction == n)
  let e := restartEntry n alt.clip (r.fields.rin + r.fields.hold + r.fields.rout)
  let s := { s with engine := s.engine.updateEntry n (fun _ => e) }
  let s := s.updateClaim n .record (fun c => { c with campaign := alt.campaign })
  (s.post .promoSwitched (some n) (detailOf SwitchCause.store.code)
    (alt.campaign.setWidth 24)).beginFrame

/-- The fetch of a junction on air stops at the refused frame, and an early release is asked for (R167). -/
def State.refusedOnAir (s : State) (n : JunctionNumber) (index : Nat) : State :=
  let s := s.removeRequest
  let s := { s with engine := s.engine.updateEntry n (fun e => { e with fetchIndex := index }) }
  (s.limitNeeded n index).requestRelease .promoRefused

/-- A PRIMED junction whose promo is refused: the alternate when there is one left, else the end (R167). -/
def State.refusedPrimed (s : State) (r : Junction) : State :=
  match r.promo, r.fields.alternate with
  | .primary, some alt => s.switchStore r alt
  | _, _ => s.removeRequest.endRecord r.number { outcome := .abandoned, reason := some .promoRefused }

/-- An ABORT for a request, by the state of its junction (R167). -/
def State.abortFor (s : State) (q : Request) : State :=
  match s.junction? q.junction with
  | none => s.endOrphan
  | some r =>
    match r.state with
    | .primed => s.refusedPrimed r
    | .squeezeIn => s.refusedOnAir r.number q.index
    | .hold => s.refusedOnAir r.number q.index
    | .release => s.refusedOnAir r.number q.index
    | .planned => s.endOrphan
    | .opened => s.endOrphan
    | .locked => s.endOrphan

/-- An ABORT reply: an orphaned request just ends (R171); the others by their junction (R167). -/
def State.abortReply (s : State) : State :=
  match s.engine.request with
  | some q => if q.orphaned then s.endOrphan else s.abortFor q
  | none => s

/-- STORE_ABORT (R167). -/
def execStoreAbort (s : State) : Host.Outcome State Fault Refusal :=
  match s.engine.state with
  | .requesting => .next s.abortReply
  | .receiving => .next s.wordInRun
  | .idle => .next s
  | .backoff => .next s
  | .halted => .next s

/-! ### The no-answer limit -/

/-- The request is unanswered: HALTED, with FETCH_HALTED raised for its junction; the slot of an orphaned
request is freed (R168, R171). -/
def State.haltFetch (s : State) : State :=
  match s.engine.request with
  | some q =>
    let s := { s with engine := { s.engine with state := .halted } }
    let s := if q.orphaned then s.freeSlots RingSlot.isFilling else s
    s.raiseForJunction .fetchHalted q.junction
  | none => s

/-- NO_ANSWER_LIMIT (R168). In IDLE, BACKOFF and HALTED it does not occur (log 3). -/
def execNoAnswerLimit (s : State) : Host.Outcome State Fault Refusal :=
  match s.engine.state with
  | .requesting => .next s.haltFetch
  | .receiving => .next s.haltFetch
  | .idle => .next s
  | .backoff => .next s
  | .halted => .next s

end Sys2Proof.Machine
end

