-- ==== Sys2Proof/Config.lean ====
section
/-! DEFINITION. What the manual leaves to the implementation or does not state: the free values of the
model. Each is opaque, so that no proof can learn its value. -/

namespace Sys2Proof

/-- One picture position: luma and the two colour difference components, at the output's component
resolution. -/
structure Pixel where
  luma : Nat
  cb : Nat
  cr : Nat
  deriving DecidableEq, Repr, Inhabited

/-- The luma that a payload word carries for its first (`false`) or second (`true`) position; the manual gives
no packing of a word (Section 9.1; log 9). -/
opaque Config.unpackLuma : LinkWord → Bool → Nat

/-- The two colour difference components that a payload word carries, shared by its two positions (Section 9.1;
log 9). -/
opaque Config.unpackChroma : LinkWord → Nat × Nat

/-- The pixel that a payload word carries for its first (`false`) or second (`true`) position: its own luma,
and the colour difference components that the two positions share (Section 9.1). -/
def unpackPosition (w : LinkWord) (second : Bool) : Pixel :=
  { luma := Config.unpackLuma w second
    cb := (Config.unpackChroma w).1
    cr := (Config.unpackChroma w).2 }

/-- Nominal black at the output's component resolution (R142; log 9). -/
opaque Config.nominalBlack : Nat

/-- Nominal white at the output's component resolution (R142; log 9). -/
opaque Config.nominalWhite : Nat

/-- The neutral value of a colour difference component (R142; log 9). -/
opaque Config.neutralChroma : Nat

/-- What separates two live claims whose posted frames compare in a circle, so that R65 orders neither of
them (log 13). It depends on the claim's posted frame, owner and tag alone. -/
opaque Config.circleKey : Frame → Nat → Byte → Nat

end Sys2Proof
end

