-- ==== Sys2Proof/Machine/Seats.lean ====
section
/-! DEFINITION. The Claim Mirror and the Seat Resolver (Chapter 4): the entries and how they change, the live
claims, the rank order, the seating walk and its results. -/

namespace Sys2Proof.Machine

/-! ### The mirror's entries (R58, R60, R61, R62) -/

/-- The mirror entry of a station. -/
def Mirror.entry (m : Mirror) (i : Nat) : MirrorEntry := (m.entries[i]?).getD MirrorEntry.reset

/-- The mirror entry of a station replaced. -/
def Mirror.setEntry (m : Mirror) (i : Nat) (e : MirrorEntry) : Mirror :=
  { m with entries := m.entries.setIfInBounds i e }

/-- An entry written with the claims of a beacon, in position order, with no results yet (R58, R61). -/
def MirrorEntry.written (claims : List Claim) (hf : Frame) : MirrorEntry :=
  { claims := claims.map (fun c => { claim := c, seat := none, rank := none }), writtenHf := some hf }

/-! ### Live claims and their rank (R64, R65) -/

/-- A claim with its owner. -/
structure OwnedClaim where
  owner : Nat
  claim : Claim
  deriving DecidableEq, Repr

/-- A claim is live at a resolution when its end is ahead of the HF of the close (R64). -/
def Claim.live (c : Claim) (hf : Frame) : Bool := ahead c.stop hf

/-- The stations of the mirror. -/
def stations : List Nat := List.range 16

/-- The live claims of every entry, entry by entry (R63, R64). -/
def Mirror.liveClaims (m : Mirror) (hf : Frame) : List OwnedClaim :=
  stations.flatMap (fun i =>
    ((m.entry i).claims.filter (fun c => c.claim.live hf)).map
      (fun c => { owner := i, claim := c.claim }))

/-- The class key: ON_AIR ranks ahead of LOCKED, LOCKED ahead of OPEN (R65). -/
def ClaimClass.key : ClaimClass → Nat
  | .onAir => 0
  | .locked => 1
  | .opened => 2

/-- Claim `a` ranks ahead of claim `b` by the four keys in turn (R65). -/
def OwnedClaim.ranksAhead (a b : OwnedClaim) : Bool :=
  if a.claim.cls.key ≠ b.claim.cls.key then decide (a.claim.cls.key < b.claim.cls.key)
  else if ahead b.claim.posted a.claim.posted then true
  else if ahead a.claim.posted b.claim.posted then false
  else if a.owner ≠ b.owner then decide (a.owner < b.owner)
  else decide (a.claim.tag < b.claim.tag)

/-- How many of the live claims rank ahead of a claim. -/
def precedence (live : List OwnedClaim) (c : OwnedClaim) : Nat :=
  live.countP (fun d => d.ranksAhead c)

/-- The key that separates claims of equal precedence, which only posted frames that compare in a circle can
give (log 13). -/
def OwnedClaim.circleKey (c : OwnedClaim) : Nat := Config.circleKey c.claim.posted c.owner c.claim.tag

/-- The walk takes `a` before `b`: fewer claims rank ahead of it (R65). Where R65 is a total order on the
live claims, precedences differ and nothing after the first test is reached. -/
def walksBefore (live : List OwnedClaim) (a b : OwnedClaim) : Bool :=
  if precedence live a < precedence live b then true
  else if precedence live b < precedence live a then false
  else if a.circleKey < b.circleKey then true
  else if b.circleKey < a.circleKey then false
  else if a.owner ≠ b.owner then decide (a.owner < b.owner)
  else decide (a.claim.tag < b.claim.tag)

/-- A claim put into its place in the rank order. -/
def insertRanked (live : List OwnedClaim) (c : OwnedClaim) : List OwnedClaim → List OwnedClaim
  | [] => [c]
  | x :: xs => if walksBefore live c x then c :: x :: xs else x :: insertRanked live c xs

/-- The listed claims in rank order. -/
def sortRanked (live : List OwnedClaim) : List OwnedClaim → List OwnedClaim
  | [] => []
  | c :: cs => insertRanked live c (sortRanked live cs)

/-- The live claims in rank order (R65). -/
def rankOrder (live : List OwnedClaim) : List OwnedClaim := sortRanked live live

/-! ### The seating walk (R66 to R68) -/

/-- The interval of a claim holds a frame (R2). -/
def OwnedClaim.holdsFrame (c : OwnedClaim) (x : Frame) : Bool := holds c.claim.start c.claim.stop x

/-- The intervals of two claims intersect (R2). -/
def OwnedClaim.meets (a b : OwnedClaim) : Bool :=
  intersects a.claim.start a.claim.stop b.claim.start b.claim.stop

/-- The campaign test: no seated claim of another owner carries the same non-zero campaign over an interval
that intersects (R67). -/
def passesCampaign (placed : List OwnedClaim) (c : OwnedClaim) : Bool :=
  c.claim.campaign == 0 ||
    !placed.any (fun t => t.owner != c.owner && t.claim.campaign == c.claim.campaign && t.meets c)

/-- How many owners other than `owner` have a seated claim whose interval holds the frame (R68). -/
def othersAt (placed : List OwnedClaim) (owner : Nat) (x : Frame) : Nat :=
  stations.countP (fun o => o != owner && placed.any (fun t => t.owner == o && t.holdsFrame x))

/-- The frames of a claim's interval at which the number of other owners can be greatest: its own start, and
the starts of seated claims that its interval holds. -/
def criticalFrames (placed : List OwnedClaim) (c : OwnedClaim) : List Frame :=
  (c.claim.start :: placed.map (fun t => t.claim.start)).filter c.holdsFrame

/-- The budget test: at every frame of the interval, fewer than C other owners hold a seat (R68). The count
is greatest at a critical frame, so these are the frames it is taken at. -/
def passesBudget (limit : Nat) (placed : List OwnedClaim) (c : OwnedClaim) : Bool :=
  (criticalFrames placed c).all (fun x => decide (othersAt placed c.owner x < limit))

/-- The result of one claim against the claims already seated (R66). -/
def judgeSeat (limit : Nat) (placed : List OwnedClaim) (c : OwnedClaim) : SeatResult :=
  if !passesCampaign placed c then .unseatedCampaign
  else if !passesBudget limit placed c then .unseatedBudget
  else .seated

/-- The walk: each claim in turn, a seated one joining the seated claims for the rest (R66). -/
def walk (limit : Nat) (placed : List OwnedClaim) :
    List OwnedClaim → List (OwnedClaim × SeatResult)
  | [] => []
  | c :: cs =>
    let res := judgeSeat limit placed c
    (c, res) :: walk limit (if res = .seated then c :: placed else placed) cs

/-- The results of a resolution in rank order (R66). -/
def Mirror.results (m : Mirror) (limit : Nat) (hf : Frame) : List (OwnedClaim × SeatResult) :=
  walk limit [] (rankOrder (m.liveClaims hf))

/-! ### Recording the results (R63, R64, R69, R70) -/

/-- The result of a claim and its place in the rank order, the first place being `k`. -/
def resultAt (c : OwnedClaim) : List (OwnedClaim × SeatResult) → Nat → Option (SeatResult × Nat)
  | [], _ => none
  | (d, res) :: rest, k => if d = c then some (res, k) else resultAt c rest (k + 1)

/-- A claim of entry `i` with its result and rank; both absent when it was expired (R64). -/
def MirrorClaim.judged (results : List (OwnedClaim × SeatResult)) (i : Nat) (c : MirrorClaim) :
    MirrorClaim :=
  let found := resultAt { owner := i, claim := c.claim } results 1
  { c with seat := found.map (·.1), rank := found.map (·.2) }

/-- The results recorded in every entry, with the last resolution HF (R63). -/
def Mirror.resolved (m : Mirror) (limit : Nat) (hf : Frame) : Mirror :=
  let results := m.results limit hf
  { entries := m.entries.mapIdx (fun i e =>
      { e with claims := e.claims.map (MirrorClaim.judged results i) })
    lastResolution := some hf }

/-- What the resolver hands the publisher: the result of every claim of the own entry by its tag, absent for
an expired one (R70). -/
def Mirror.ownResults (m : Mirror) (own : Nat) : List (Byte × Option SeatResult) :=
  (m.entry own).claims.map (fun c => (c.claim.tag, c.seat))

end Sys2Proof.Machine
end

