-- ==== Sys2Proof/Machine/Publisher.lean ====
section
/-! DEFINITION. The Claim Publisher (Chapter 5): its six stages at a cycle close, what it does when the station
leaves MEMBER, and its declines outside MEMBER. -/

namespace Sys2Proof.Machine

/-- What a cycle close brings to the publisher: the four fields of the close (R35), the own results by tag
(R70), and the configured own station, S and Hpub. -/
structure CloseContext where
  hf : Frame
  station : StationState
  entry : Bool
  mismatch : Bool
  results : List (Byte × Option SeatResult)
  own : Nat
  settle : Nat
  horizon : Nat
  deriving DecidableEq, Repr

/-- The result that reaches an own claim at a close, if any: it was handed on with its tag at the last close
and carries no publish mark (R78). An expired claim has none. -/
def State.resultFor (s : State) (x : CloseContext) (c : OwnClaim) : Option SeatResult :=
  match c.tag with
  | none => none
  | some t =>
    if !c.mark && s.publisher.lastChoice.any (fun d => d.tag == t) then
      ((x.results.find? (fun p => p.1 == t)).map (·.2)).join
    else none

/-- The settle count after a result (R81). -/
def settled (x : CloseContext) (res : SeatResult) (count : Nat) : Nat :=
  if res = .seated ∧ x.mismatch = false then count + 1 else 0

/-! ### Stage 1: forfeit (R79, R80) -/

/-- The presence entry of a station. -/
def CueBus.entry (b : CueBus) (i : Nat) : PresenceEntry := (b.presence[i]?).getD PresenceEntry.reset

/-- A PRESENT peer whose reported bitmap does not include the own station (R80). -/
def PresenceEntry.lacks (e : PresenceEntry) (own : Nat) : Bool :=
  e.state == .present && e.heard.any (fun h => !h.bitmap.getLsbD own)

/-- The lowest station whose bitmap lacks the own station (R80). -/
def CueBus.lackingStation (b : CueBus) (own : Nat) : Option Nat :=
  stations.find? (fun i => i != own && (b.entry i).lacks own)

/-- A record whose claim a forfeit reposts. -/
def RecordState.forfeits (st : RecordState) : Bool := st == .opened || st == .locked

/-- OPEN and LOCKED records become OPEN and their record claims are to be reposted (R80). -/
def State.repostAll (s : State) (ns : List JunctionNumber) : State :=
  { s with
    table := s.table.map (fun r => if r.state.forfeits then { r with state := .opened } else r)
    publisher := { s.publisher with
      claims := s.publisher.claims.map (fun c =>
        if c.role == .record && ns.contains c.junction then c.repost else c) } }

/-- The forfeit (R80): the standing of every claim not yet committed is given up, pending amendments lapse,
and one FORFEIT event is posted when a claim is reposted, after the events of the lapses (log 16). -/
def State.forfeit (s : State) (peer : Nat) : State :=
  let ns := s.numbersWhere (fun r => r.state.forfeits)
  let pend := s.numbersWhere (fun r => r.pending.isSome)
  let s := (s.repostAll ns).lapseAll .forfeit pend
  if ns.isEmpty then s else s.post .forfeit none (detailNat peer) (detailNat ns.length)

/-- Stage 1, outside the join grace (R77, R79). -/
def State.stageForfeit (s : State) (x : CloseContext) : State :=
  if s.publisher.memberCloses = 2 then
    match s.bus.lackingStation x.own with
    | some peer => s.forfeit peer
    | none => s
  else s

/-! ### Stage 2: secondary claims (R86 to R88) -/

/-- A pending amendment is adopted (R87): the secondary claim becomes the LOCKED record claim. -/
def State.adopt (s : State) (r : Junction) (a : Amendment) : State :=
  let s := s.replaceJunction { r with fields := a.fields, promo := a.promo, pending := none }
  let s := s.dropClaim r.number .record
  let s := s.updateClaim r.number .secondary
    (fun c => { c with role := .record, cls := .locked, settle := none })
  s.post .amendAdopted (some r.number) 0 (a.fields.commitFrame s.lead)

/-- Either commit frame of a pending amendment has been reached (R88). -/
def State.amendmentDue (s : State) (x : CloseContext) (r : Junction) (a : Amendment) : Bool :=
  !ahead (r.fields.commitFrame s.lead) x.hf || !ahead (a.fields.commitFrame s.lead) x.hf

/-- The result of a secondary claim sets its settle count, which may lead to adoption (R86, R87). -/
def State.settleSecondary (s : State) (x : CloseContext) (r : Junction) (a : Amendment) (c : OwnClaim) :
    State :=
  match s.resultFor x c with
  | none => s
  | some res =>
    let k := settled x res (c.settle.getD 0)
    if x.settle ≤ k then s.adopt r a
    else s.updateClaim r.number .secondary (fun c => { c with settle := some k })

/-- Stage 2 for one record (R77). -/
def State.secondaryStep (s : State) (x : CloseContext) (n : JunctionNumber) : State :=
  match s.junction? n with
  | none => s
  | some r =>
    match r.pending with
    | none => s
    | some a =>
      if s.amendmentDue x r a then s.lapse n .commitFrame
      else
        match s.claim? n .secondary with
        | none => s
        | some c => s.settleSecondary x r a c

/-! ### Stage 3: record claims (R81 to R85) -/

/-- The claim of an OPEN record locks (R82). -/
def State.lockClaim (s : State) (n : JunctionNumber) (posted : Option Frame) : State :=
  let s := s.updateClaim n .record (fun c => { c with cls := .locked, settle := none })
  let s := s.updateJunction n (fun r => { r with state := .locked })
  s.post .claimLocked (some n) 0 (posted.getD 0)

/-- An OPEN record switches to its alternate promo and its claim is to be reposted (R83). -/
def State.switchCampaign (s : State) (n : JunctionNumber) (campaign : Half) : State :=
  let s := s.updateJunction n (fun r => { r with promo := .alternate })
  let s := s.updateClaim n .record (fun c => { c.repost with campaign := campaign })
  s.post .promoSwitched (some n) (detailOf SwitchCause.campaign.code) (campaign.setWidth 24)

/-- The result of an OPEN record's claim (R81 to R83). -/
def State.openResult (s : State) (x : CloseContext) (r : Junction) (c : OwnClaim) (res : SeatResult) :
    State :=
  match res, r.promo, r.fields.alternate with
  | .unseatedCampaign, .primary, some alt => s.switchCampaign r.number alt.campaign
  | _, _, _ =>
    let k := settled x res (c.settle.getD 0)
    if x.settle ≤ k then s.lockClaim r.number c.posted
    else s.updateClaim r.number .record (fun c => { c with settle := some k })

/-- A LOCKED record's claim is unseated: the lock is lost, its pending amendment lapses (R84, R88). -/
def State.loseLock (s : State) (r : Junction) (res : SeatResult) : State :=
  let n := r.number
  let s := s.updateClaim n .record (fun c => { c with cls := .opened, settle := some 0 })
  let s := s.updateJunction n (fun r => { r with state := .opened })
  let s := if r.pending.isSome then s.lapse n .lockLost else s
  (s.post .lockLost (some n) (detailOf res.code) 0).raiseForJunction .seatConflict n

/-- The result of a committed record's claim: a loss of seat is reported once (R85). -/
def State.committedResult (s : State) (n : JunctionNumber) (c : OwnClaim) (res : SeatResult) : State :=
  if res = .seated then s.updateClaim n .record (fun c => { c with conflict := false })
  else if c.conflict then s
  else
    let s := (s.raiseForJunction .seatConflict n).post .claimUnseated (some n) (detailOf res.code) 0
    s.updateClaim n .record (fun c => { c with conflict := true })

/-- The result of a record claim, by the state of its record (R81 to R85). -/
def State.recordResult (s : State) (x : CloseContext) (r : Junction) (c : OwnClaim) (res : SeatResult) :
    State :=
  match r.state with
  | .planned => s
  | .opened => s.openResult x r c res
  | .locked => if res = .seated then s else s.loseLock r res
  | .primed => s.committedResult r.number c res
  | .squeezeIn => s.committedResult r.number c res
  | .hold => s.committedResult r.number c res
  | .release => s.committedResult r.number c res

/-- Stage 3 for one record (R77). -/
def State.recordStep (s : State) (x : CloseContext) (n : JunctionNumber) : State :=
  match s.junction? n, s.claim? n .record with
  | some r, some c =>
    match s.resultFor x c with
    | some res => s.recordResult x r c res
    | none => s
  | _, _ => s

/-! ### Stage 4: commit (R89, R90, R98) -/

/-- The record claim was handed on as LOCKED at the last close and its result at this close is SEATED
(R89). -/
def State.commitAllowed (s : State) (x : CloseContext) (r : Junction) : Bool :=
  r.state == .locked &&
    match s.claim? r.number .record with
    | some c =>
      s.resultFor x c == some .seated &&
        s.publisher.lastChoice.any (fun d => c.tag == some d.tag && d.cls == .locked)
    | none => false

/-- A record is committed: PRIMED, with a fetch entry (R90, R161). -/
def State.commitRecord (s : State) (r : Junction) : State :=
  let s := s.updateJunction r.number (fun r => { r with state := .primed })
  let s := s.updateClaim r.number .record (fun c => { c with conflict := false })
  (s.createEntry r).post .junctionCommitted (some r.number) 0 (r.fields.commitFrame s.lead)

/-- The commit test of one record (R89). -/
def State.commitTest (s : State) (x : CloseContext) (n : JunctionNumber) : State :=
  match s.junction? n with
  | none => s
  | some r =>
    if s.commitAllowed x r then s.commitRecord r
    else s.endRecord n { outcome := .declined, reason := some .noLock }

/-- The commit frame of a record is not ahead of a frame. -/
def State.commitReached (s : State) (hf : Frame) (r : Junction) : Bool :=
  !ahead (r.fields.commitFrame s.lead) hf

/-- Records not committed whose commit frame is reached end DECLINED(SILENT), in table order (R98, R99). -/
def State.declineSilent (s : State) (hf : Frame) (p : RecordState → Bool) : State :=
  s.endRecords { outcome := .declined, reason := some .silent }
    (s.numbersWhere (fun r => p r.state && s.commitReached hf r))

/-! ### Stage 5: the choice of positions (R91 to R93) -/

/-- A beacon has four claim positions. -/
def claimPositions : Nat := 4

/-- A candidate for a position: an own claim, or a PLANNED record. -/
inductive Candidate where
  | claim (n : JunctionNumber) (role : ClaimRole)
  | planned (n : JunctionNumber)
  deriving DecidableEq, Repr

/-- A PLANNED record is within the horizon (R91). -/
def withinHorizon (x : CloseContext) (r : Junction) : Bool :=
  !ahead r.fields.claimStart (addFrames x.hf x.horizon)

/-- The fifth group: OPEN records and PLANNED records within the horizon (R91). -/
def groupFive (x : CloseContext) (r : Junction) : Option Candidate :=
  match r.state with
  | .opened => some (.claim r.number .record)
  | .planned => if withinHorizon x r then some (.planned r.number) else none
  | .locked => none
  | .primed => none
  | .squeezeIn => none
  | .hold => none
  | .release => none

/-- The candidates in the order in which they are given positions (R91). -/
def State.candidates (s : State) (x : CloseContext) : List Candidate :=
  (s.numbersWhere (fun r => r.state.isOnAir)).map (fun n => .claim n .record) ++
    (s.numbersWhere (fun r => r.state == .primed)).map (fun n => .claim n .record) ++
    (s.numbersWhere (fun r => r.state == .locked)).map (fun n => .claim n .record) ++
    (s.numbersWhere (fun r => r.pending.isSome)).map (fun n => .claim n .secondary) ++
    s.table.filterMap (groupFive x)

/-- An OPEN record that finds no position reverts to PLANNED, and its claim is dropped (R93). -/
def State.revert (s : State) (n : JunctionNumber) : State :=
  (s.updateJunction n (fun r => if r.state = .opened then { r with state := .planned } else r)).dropClaim
    n .record

/-- What becomes of a candidate that finds no position (R91, R93). Candidates of groups 1 to 3 always find
one. -/
def State.passOver (s : State) : Candidate → State
  | .claim n .secondary => s.lapse n .noPosition
  | .claim n .record =>
    match s.junction? n with
    | some r => if r.state = .opened then s.revert n else s
    | none => s
  | .planned _ => s

/-- The candidates left without a position, in order. -/
def State.passOverAll (s : State) : List Candidate → State
  | [] => s
  | c :: cs => (s.passOver c).passOverAll cs

/-- The next tag after the last issued that is not held by another claim of the choice; at most three others
hold tags, so a free one is found among the next four (R92). -/
def nextTag (taken : List Byte) : Nat → Byte → Byte
  | 0, t => t + 1
  | k + 1, t => if taken.contains (t + 1) then nextTag taken k (t + 1) else t + 1

/-- A claim takes the form of one published anew (R92). -/
def OwnClaim.publish (c : OwnClaim) (tag : Byte) (hf : Frame) : OwnClaim :=
  { c with tag := some tag, cls := .opened, posted := some hf, settle := some 0, mark := false }

/-- The own claim of a PLANNED record that finds a position, before it is published (R92). -/
def Junction.newClaim (r : Junction) : OwnClaim :=
  { junction := r.number
    role := .record
    tag := none
    cls := .opened
    posted := none
    start := r.fields.claimStart
    stop := r.fields.claimEnd
    campaign := r.campaign
    settle := some 0
    mark := true
    conflict := false }

/-- A PLANNED record that finds a position becomes OPEN with a record claim that awaits publication (R92). -/
def State.admitClaim (s : State) : Candidate → State
  | .planned n =>
    match s.junction? n with
    | some r =>
      (s.updateJunction n (fun r => { r with state := .opened })).addClaim r.newClaim
    | none => s
  | .claim _ _ => s

/-- The chosen PLANNED records, in order. -/
def State.admitAll (s : State) : List Candidate → State
  | [] => s
  | c :: cs => (s.admitClaim c).admitAll cs

/-- The junction and role of the claim in a chosen position. -/
def Candidate.key : Candidate → JunctionNumber × ClaimRole
  | .claim n role => (n, role)
  | .planned n => (n, .record)

/-- The claims of the chosen positions that await publication are published anew, in position order; `taken`
are the tags held by the claims of this choice (R92). -/
def State.publishAll (s : State) (hf : Frame) (taken : List Byte) : List Candidate → State
  | [] => s
  | c :: cs =>
    match s.claim? c.key.1 c.key.2 with
    | some o =>
      if o.mark then
        let t := nextTag taken claimPositions s.publisher.lastTag
        let s := s.updateClaim c.key.1 c.key.2 (fun o => o.publish t hf)
        ({ s with publisher := { s.publisher with lastTag := t } }).publishAll hf (t :: taken) cs
      else s.publishAll hf taken cs
    | none => s.publishAll hf taken cs

/-- The tags of the chosen claims that keep their form (R92). -/
def State.keptTags (s : State) (chosen : List Candidate) : List Byte :=
  chosen.filterMap (fun c => (s.claim? c.key.1 c.key.2).bind (fun o => if o.mark then none else o.tag))

/-- The choice: the candidates that find positions, with the state after stage 5 (R91 to R93). -/
def State.stageChoice (s : State) (x : CloseContext) : State × List Candidate :=
  let cands := s.candidates x
  let chosen := cands.take claimPositions
  let s := (s.passOverAll (cands.drop claimPositions)).admitAll chosen
  (s.publishAll x.hf (s.keptTags chosen) chosen, chosen)

/-! ### Stage 6: hand-on (R94, R15, R26, R61, R79) -/

/-- An own claim as it is handed on. -/
def OwnClaim.handedOn (c : OwnClaim) : Option Claim :=
  match c.tag, c.posted with
  | some tag, some posted =>
    some { tag := tag, cls := c.cls, posted := posted, start := c.start, stop := c.stop,
           campaign := c.campaign }
  | _, _ => none

/-- The presence bitmap as the presence table stands (R26). -/
def CueBus.bitmap (b : CueBus) : Half :=
  stations.foldl (fun m i => if (b.entry i).state = .present then m ||| (1#16 <<< i) else m) 0

/-- The claims in the chosen positions, in position order. -/
def State.handedOn (s : State) (chosen : List Candidate) : List Claim :=
  chosen.filterMap (fun c => (s.claim? c.key.1 c.key.2).bind OwnClaim.handedOn)

/-- The chosen claims go to the beacon (R15) and the own mirror entry (R61), become the last choice, and the
member close count advances (R79, R94). -/
def State.handOn (s : State) (x : CloseContext) (claims : List Claim) : State :=
  let b : Beacon :=
    { station := x.own, digest := s.bus.digest.getD 0, bitmap := s.bus.bitmap, claims := claims }
  { s with
    bus := { s.bus with held := some b }
    mirror := s.mirror.setEntry x.own (MirrorEntry.written claims x.hf)
    publisher :=
      { s.publisher with
        lastChoice := claims
        memberCloses := min (s.publisher.memberCloses + 1) 2 } }

/-! ### The stages at a close (R77) -/

/-- Stage 2 for the listed records. -/
def State.stageSecondary (s : State) (x : CloseContext) : List JunctionNumber → State
  | [] => s
  | n :: ns => (s.secondaryStep x n).stageSecondary x ns

/-- Stage 3 for the listed records. -/
def State.stageRecords (s : State) (x : CloseContext) : List JunctionNumber → State
  | [] => s
  | n :: ns => (s.recordStep x n).stageRecords x ns

/-- Stage 4 in MEMBER for the listed records. -/
def State.stageCommit (s : State) (x : CloseContext) : List JunctionNumber → State
  | [] => s
  | n :: ns => (s.commitTest x n).stageCommit x ns

/-- Stages 2 and 3 (R77), each over the table as it stands when the stage begins. -/
def State.stageResults (s : State) (x : CloseContext) : State :=
  let s := s.stageSecondary x (s.numbersWhere (fun r => r.pending.isSome))
  s.stageRecords x s.numbers

/-- Stage 4 in MEMBER (R89). -/
def State.stageCommits (s : State) (x : CloseContext) : State :=
  s.stageCommit x (s.numbersWhere (fun r => r.state.isUncommitted && s.commitReached x.hf r))

/-- The publisher at a close in MEMBER: the six stages (R77). -/
def State.closeMember (s : State) (x : CloseContext) : State :=
  let s := ((s.stageForfeit x).stageResults x).stageCommits x
  let choice := s.stageChoice x
  choice.1.handOn x (choice.1.handedOn choice.2)

/-- The publisher at a close outside MEMBER: stages 2 and 3 find no results, and stage 4 is the decline of
R98 (R77). -/
def State.closeOutside (s : State) (x : CloseContext) : State :=
  (s.stageResults x).declineSilent x.hf (fun st => st == .planned)

/-! ### Leaving MEMBER (R97) -/

/-- The station leaves MEMBER: pending amendments lapse, OPEN and LOCKED records revert to PLANNED with their
claims dropped, the last choice is emptied and the member close count is 0 (R97). -/
def State.publisherLeaves (s : State) : State :=
  let ns := s.numbersWhere (fun r => r.state.forfeits)
  let s := s.lapseAll .leftMember (s.numbersWhere (fun r => r.pending.isSome))
  { s with
    table := s.table.map (fun r => if r.state.forfeits then { r with state := .planned } else r)
    publisher := { s.publisher with
      claims := s.publisher.claims.filter (fun c => !ns.contains c.junction)
      lastChoice := []
      memberCloses := 0 } }

end Sys2Proof.Machine
end

