-- ==== Sys2Proof/Machine/Queries.lean ====
section
/-! DEFINITION. What the queries report, byte by byte (R182 to R184, Section 11.6). -/

namespace Sys2Proof.Machine

/-- A section of `n` bytes that is reported as absent (R196). -/
def absent (n : Nat) : List Byte := List.replicate n 0

/-! ### QUERY_STATUS (R182) -/

/-- The timing section: 5 bytes. -/
def State.timingReport (s : State) : List Byte :=
  [s.timing.refState.code, byteFlag s.timing.hfValid] ++ frameBytes s.hf

/-- The cue bus section: 7 bytes. -/
def CueBus.report (b : CueBus) : List Byte :=
  [b.station.code, byte1 b.listening, byte1 b.mismatches] ++
    (match b.digest with
     | some d => 1 :: halfBytes d
     | none => absent 3) ++
    [byteFlag b.groupMismatch]

/-- The configuration section: 25 bytes. -/
def configReport : Option Configuration → List Byte
  | some c => 1 :: c.encode
  | none => absent 25

/-- The table section: 1 + 3 bytes for each record. -/
def State.tableReport (s : State) : List Byte :=
  byte1 s.table.length :: s.table.flatMap (fun r => halfBytes r.number ++ [r.state.code])

/-- The sequencer section: 7 bytes. -/
def Sequencer.report (q : Sequencer) : List Byte :=
  junctionBytes q.onAir ++ [q.phase.code] ++ q.lines.toList.map levelCode

/-- The layouts section: 36 bytes. -/
def LayoutStore.report (st : LayoutStore) : List Byte :=
  [st.active.code, codeOr0 LoadMode.code st.staged] ++ st.slot0.encode ++ st.slot1.encode

/-- The current request with its mark: 13 bytes. -/
def requestReport : Option Request → List Byte
  | some r =>
    1 :: halfBytes r.junction ++ bytes4 r.clip.toNat ++ bytes3 r.index ++
      [byte1 r.first, byte1 r.count, byteFlag r.orphaned]
  | none => absent 13

/-- The parity refetch flag in one byte, 255 for absent. -/
def refetchByte : Option Nat → Byte
  | some b => byte1 b
  | none => 255

/-- The fetch section: 16 bytes. -/
def Engine.report (g : Engine) : List Byte :=
  g.state.code :: requestReport g.request ++ [byte1 g.retry, refetchByte g.refetch]

/-- A slot's place in ring order, 1 for the oldest, 0 when it is FREE. -/
def Ring.place (r : Ring) (i : Nat) : Nat :=
  match r.order.findIdx? (· == i) with
  | some k => k + 1
  | none => 0

/-- One ring slot: 8 bytes. -/
def Ring.slotReport (r : Ring) (i : Nat) : List Byte :=
  match r.slots.getD i none with
  | some t =>
    t.state.code :: halfBytes t.junction ++ bytes3 t.index ++ [byte1 t.blocks, byte1 (r.place i)]
  | none => absent 8

/-- The ring section: 16 bytes and 8 for each slot. -/
def Ring.report (r : Ring) : List Byte :=
  byte1 r.slots.length :: (List.range r.slots.length).flatMap r.slotReport ++
    junctionBytes r.onAir ++ bytes3 r.shown ++ bytes3 r.next ++ [byte1 r.consecutive] ++
    bytes2 r.slips ++ bytes2 r.drops ++ [byteFlag r.frozen, byteFlag r.fresh]

/-- One alarm: 6 bytes. -/
def Alarm.report (a : Alarm) : List Byte := [byteFlag a.flag, a.count] ++ markedFrame a.detail

/-- The reporting section: 52 bytes. -/
def State.reportingReport (s : State) : List Byte :=
  byte1 s.reporting.events.length :: bytes2 s.reporting.nextSeq.toNat ++
    s.reporting.alarms.toList.flatMap Alarm.report ++ [byteFlag s.attn]

/-- The payload of a QUERY_STATUS reply. -/
def State.statusReport (s : State) : List Byte :=
  s.timingReport ++ s.bus.report ++ configReport s.config ++ s.tableReport ++ s.sequencer.report ++
    s.layouts.report ++ s.engine.report ++ s.ring.report ++ s.reportingReport

/-! ### QUERY_JUNCTION (R183) -/

/-- The record state section: 8 bytes. -/
def Junction.stateReport (r : Junction) : List Byte :=
  [r.state.code, r.promo.code] ++
    (match r.actualFirst with
     | some f => 1 :: frameBytes f ++ bytes2 (r.actualHold.getD 0)
     | none => absent 6)

/-- The pending amendment section. -/
def Junction.pendingReport (r : Junction) (lead : Nat) : List Byte :=
  match r.pending with
  | some a =>
    1 :: a.fields.encode r.number ++ a.fields.derived lead ++ halfBytes (a.fields.campaignOf a.promo)
  | none => absent 1

/-- One own claim with its mark: 17 bytes. -/
def claimReport : Option OwnClaim → List Byte
  | some c =>
    [1, c.tag.getD 0, c.cls.code] ++ frameBytes (c.posted.getD 0) ++ frameBytes c.start ++
      frameBytes c.stop ++ halfBytes c.campaign ++
      [match c.settle with
       | some k => byte1 k
       | none => 255] ++
      [byteFlag c.mark, byteFlag c.conflict]
  | none => absent 17

/-- The fetch entry with its mark: 11 bytes. -/
def entryReport : Option FetchEntry → List Byte
  | some e => 1 :: bytes4 e.clip.toNat ++ bytes3 e.needed ++ bytes3 e.fetchIndex
  | none => absent 11

/-- The on-air state with its mark: 23 bytes. -/
def State.onAirReport (s : State) (r : Junction) : List Byte :=
  if r.state.isOnAir then
    [1, s.sequencer.phase.code] ++ bytes3 s.sequencer.frameCounter ++ [byte1 s.sequencer.ramp] ++
      bytes2 s.sequencer.holdLeft ++
      [byte1 s.sequencer.releaseLeft, codeOr0 Reason.code s.sequencer.reason,
        byteFlag s.sequencer.begun] ++
      bytes3 s.ring.shown ++ bytes3 s.ring.next ++ [byte1 s.ring.consecutive] ++
      bytes2 s.ring.slips ++ bytes2 s.ring.drops ++ [byteFlag s.ring.frozen]
  else absent 23

/-- The payload of a QUERY_JUNCTION reply. -/
def State.junctionReport (s : State) (r : Junction) : List Byte :=
  r.fields.encode r.number ++ r.fields.derived s.lead ++ r.stateReport ++ r.pendingReport s.lead ++
    claimReport (s.claim? r.number .record) ++ claimReport (s.claim? r.number .secondary) ++
    entryReport (s.engine.entries.find? (fun e => e.junction == r.number)) ++ s.onAirReport r

/-! ### QUERY_MIRROR (R184) -/

/-- A presence entry: 18 bytes of a station block. -/
def PresenceEntry.report (e : PresenceEntry) : List Byte :=
  [e.state.code, byte1 e.missed] ++
    (match e.heard with
     | some h => 1 :: frameBytes h.hf ++ halfBytes h.digest ++ frameBytes h.senderHf ++ halfBytes h.bitmap
     | none => absent 11) ++
    bytes2 e.corrupt ++ bytes2 e.silent ++ [byteFlag e.mismatch]

/-- A claim report: 15 bytes. -/
def MirrorClaim.report (c : MirrorClaim) : List Byte :=
  c.claim.encode ++ [codeOr0 SeatResult.code c.seat, byte1 (c.rank.getD 0)]

/-- A mirror entry: 65 bytes of a station block, the unused claim reports as zeros. -/
def MirrorEntry.report (e : MirrorEntry) : List Byte :=
  markedFrame e.writtenHf ++ [byte1 e.claims.length] ++ e.claims.flatMap MirrorClaim.report ++
    absent (15 * (4 - e.claims.length))

/-- The payload of a QUERY_MIRROR reply: 16 station blocks and the last resolution HF. -/
def State.mirrorReport (s : State) : List Byte :=
  stations.flatMap (fun i => (s.bus.entry i).report ++ (s.mirror.entry i).report) ++
    markedFrame s.mirror.lastResolution

/-- A presence entry with its corrupt and silent counts cleared (R25). -/
def PresenceEntry.cleared (e : PresenceEntry) : PresenceEntry := { e with corrupt := 0, silent := 0 }

/-- The corrupt and silent counts of every entry become 0 (R25). -/
def State.clearCounts (s : State) : State :=
  { s with bus := { s.bus with presence := s.bus.presence.map PresenceEntry.cleared } }

end Sys2Proof.Machine
end

