-- ==== Sys2Proof/Machine/Orders.lean ====
section
/-! DEFINITION. The Order Port (Chapter 10): exchanges, the checks of an order frame, and the twelve orders
with their own checks, effects and replies. -/

namespace Sys2Proof.Machine

/-! ### Exchanges and the checks of a frame (R177, R178) -/

/-- What an order comes to: the part after it, and its reply. -/
structure Answer where
  state : State
  reply : Reply
  deriving DecidableEq, Repr

/-- An order is refused: the part is as it was, and the reply has no payload (R178). -/
def State.refuse (s : State) (st : Status) : Answer := { state := s, reply := { status := st, payload := [] } }

/-- An order is accepted with a reply payload (R179). -/
def State.accept (s : State) (payload : List Byte) : Answer :=
  { state := s, reply := { status := .accepted, payload := payload } }

/-- The reply is what ODO carries from now on (R177). -/
def Answer.sent (a : Answer) : State := { a.state with exchange := .replying a.reply }

/-- An order frame of a kind is taken, at the end of its last byte, in an exchange whose order frame is being
read: its CRC-16 and its length are checked before the order's own rules (R177, R178). Outside such an
exchange no order frame is read and nothing changes (log 17). -/
def State.takeOrder (s : State) (kind : Byte) (payload : List Byte) (crc : Half) (fits : Bool)
    (run : State → Answer) : State :=
  if s.exchange = .reading then
    if crc ≠ orderCrc kind payload then (s.refuse .checkError).sent
    else if fits then (run s).sent
    else (s.refuse .refusedFormat).sent
  else s

/-- OSEL_ASSERTED (R177): an exchange begins. While one is open OSEL is asserted already, and nothing changes
(log 3). -/
def execOselAsserted (s : State) : Host.Outcome State Fault Refusal :=
  match s.exchange with
  | .idle => .next { s with exchange := .reading }
  | .reading => .next s
  | .replying _ => .next s

/-- OSEL_DEASSERTED (R177): the exchange ends at once. -/
def execOselDeasserted (s : State) : Host.Outcome State Fault Refusal := .next { s with exchange := .idle }

/-- UNKNOWN_ORDER_KIND (R178): no length fits an unknown kind. -/
def execUnknownOrderKind (kind : Byte) (payload : List Byte) (crc : Half) (s : State) :
    Host.Outcome State Fault Refusal :=
  .next (s.takeOrder kind payload crc false (fun s => s.refuse .refusedFormat))

/-! ### CONFIGURE (R180, R181) -/

/-- The station state that an accepted CONFIGURE leads to (R30). -/
def Timing.firstStation (t : Timing) : StationState :=
  if t.refState = .locked then .listening else .silentReference

/-- The record is stored and every block takes its configuration from it (R181). -/
def State.applyConfiguration (s : State) (c : Configuration) : State :=
  { s with
    config := some c
    bus := { s.bus with digest := some c.digest, station := s.timing.firstStation, listening := 0 }
    sequencer := { s.sequencer with lines := c.rests }
    layouts := LayoutStore.reset
    ring := { s.ring with slots := List.replicate c.depth none } }

/-- CONFIGURE's own checks and effect (R180). -/
def State.configure (s : State) (p : List Byte) : Answer :=
  if s.bus.station ≠ .unconfigured then s.refuse .refusedState
  else
    match decodeConfiguration p with
    | some c => (s.applyConfiguration c).accept (halfBytes c.digest)
    | none => s.refuse .refusedRange

/-- CONFIGURE (R180). -/
def execConfigure (payload : List Byte) (crc : Half) (s : State) : Host.Outcome State Fault Refusal :=
  .next (s.takeOrder OrderKind.configure.code payload crc (payload.length == 24)
    (fun s => s.configure payload))

/-! ### PLAN (R41, R42) -/

/-- PLAN and AMEND are not taken while the station is UNCONFIGURED or HF is not valid (R41, R44). -/
def State.planningClosed (s : State) : Bool :=
  s.bus.station == .unconfigured || !s.timing.hfValid

/-- Checks 4 to 7 of PLAN, and of AMEND against the other records: the first that fails (R41, R44). -/
def State.fieldsRefusal (s : State) (n : JunctionNumber) (f : FieldSet) (others : List Junction) :
    Option Status :=
  if !s.fieldsInRange n f then some .refusedRange
  else if !f.longEnough then some .refusedLength
  else if others.any (fun r => r.occupies f) then some .refusedOverlap
  else if s.tooLate f others then some .refusedLate
  else none

/-- A record as PLAN inserts it (R42). -/
def plannedRecord (n : JunctionNumber) (f : FieldSet) : Junction :=
  { number := n
    fields := f
    state := .planned
    promo := .primary
    pending := none
    actualFirst := none
    actualHold := none
    ending := none }

/-- PLAN's own checks and effect (R41, R42). -/
def State.plan (s : State) (p : List Byte) : Answer :=
  let n := payloadNumber p
  if s.planningClosed then s.refuse .refusedState
  else if tableCapacity ≤ s.table.length then s.refuse .refusedFull
  else if (s.junction? n).isSome then s.refuse .refusedDuplicate
  else
    match decodeFieldSet p with
    | none => s.refuse .refusedRange
    | some f =>
      match s.fieldsRefusal n f s.table with
      | some st => s.refuse st
      | none =>
        ({ s with table := insertByStart (plannedRecord n f) s.table }).accept (f.derived s.lead)

/-- PLAN (R41). -/
def execPlan (payload : List Byte) (crc : Half) (s : State) : Host.Outcome State Fault Refusal :=
  .next (s.takeOrder OrderKind.plan.code payload crc (fieldSetFits payload) (fun s => s.plan payload))

/-! ### AMEND (R43 to R49) -/

/-- The promo in use of an amended field set (R43). -/
def amendedPromo (p : PromoInUse) (f : FieldSet) : PromoInUse :=
  match p, f.alternate with
  | .alternate, some _ => .alternate
  | .alternate, none => .primary
  | .primary, _ => .primary

/-- An amendment keeps the claim (Section 3.6). -/
def Junction.keepsClaim (r : Junction) (f : FieldSet) (p : PromoInUse) : Bool :=
  liesWithin f.claimStart f.claimEnd r.fields.claimStart r.fields.claimEnd &&
    f.campaignOf p == r.campaign

/-- A claim takes the interval and the campaign of a field set (Section 5.1). -/
def OwnClaim.follow (c : OwnClaim) (f : FieldSet) (p : PromoInUse) : OwnClaim :=
  { c with start := f.claimStart, stop := f.claimEnd, campaign := f.campaignOf p }

/-- The record takes the new field set, and its claim with it (R45 to R47). -/
def State.amendRecord (s : State) (r : Junction) (f : FieldSet) (p : PromoInUse) : State :=
  (s.replaceJunction { r with fields := f, promo := p }).updateClaim r.number .record
    (fun c => c.follow f p)

/-- The claims that hold positions ahead of OPEN claims: those of LOCKED, PRIMED and on-air records, and
secondary claims (R48). -/
def State.positionsAhead (s : State) : Nat :=
  s.table.countP (fun r => r.state == .locked || r.state.isCommitted) +
    s.table.countP (fun r => r.pending.isSome)

/-- A secondary claim as the AMEND that forms a pending amendment creates it (R86). -/
def secondaryClaim (n : JunctionNumber) (f : FieldSet) (p : PromoInUse) : OwnClaim :=
  { junction := n
    role := .secondary
    tag := none
    cls := .opened
    posted := none
    start := f.claimStart
    stop := f.claimEnd
    campaign := f.campaignOf p
    settle := some 0
    mark := true
    conflict := false }

/-- An accepted AMEND's reply: the new derived frames and the path (R44). -/
def State.amended (s : State) (f : FieldSet) (path : AmendPath) : Answer :=
  s.accept (f.derived s.lead ++ [path.code])

/-- The amendment becomes, or replaces, the pending one (R48, R49). -/
def State.amendPending (s : State) (r : Junction) (f : FieldSet) (p : PromoInUse) : Answer :=
  let held := s.updateJunction r.number
    (fun x => { x with pending := some { fields := f, promo := p } })
  if r.pending.isSome then
    (held.updateClaim r.number .secondary (fun c => (c.follow f p).repost)).amended f .pending
  else if s.positionsAhead ≤ 3 then
    (held.addClaim (secondaryClaim r.number f p)).amended f .pending
  else s.refuse .refusedFull

/-- An amendment of a LOCKED record that keeps the claim: applied in place, discarding a pending one
(R47). -/
def State.amendLocked (s : State) (r : Junction) (f : FieldSet) (p : PromoInUse) : Answer :=
  let t := s.amendRecord r f p
  let t := if r.pending.isSome then t.lapse r.number .superseded else t
  t.amended f .kept

/-- The path of an AMEND that has passed its checks, by the state of its record (R45 to R49). -/
def State.amendPath (s : State) (r : Junction) (f : FieldSet) : Answer :=
  let p := amendedPromo r.promo f
  match r.state with
  | .planned => (s.amendRecord r f p).amended f .replaced
  | .opened =>
    if r.keepsClaim f p then (s.amendRecord r f p).amended f .kept
    else ((s.amendRecord r f p).updateClaim r.number .record OwnClaim.repost).amended f .reposted
  | .locked => if r.keepsClaim f p then s.amendLocked r f p else s.amendPending r f p
  | .primed => s.refuse .refusedLate
  | .squeezeIn => s.refuse .refusedLate
  | .hold => s.refuse .refusedLate
  | .release => s.refuse .refusedLate

/-- AMEND's own checks and effect (R44). -/
def State.amend (s : State) (p : List Byte) : Answer :=
  let n := payloadNumber p
  if s.planningClosed then s.refuse .refusedState
  else
    match s.junction? n with
    | none => s.refuse .refusedUnknown
    | some r =>
      if r.state.isCommitted then s.refuse .refusedLate
      else
        match decodeFieldSet p with
        | none => s.refuse .refusedRange
        | some f =>
          match s.fieldsRefusal n f (removeNumber n s.table) with
          | some st => s.refuse st
          | none => s.amendPath r f

/-- AMEND (R44). -/
def execAmend (payload : List Byte) (crc : Half) (s : State) : Host.Outcome State Fault Refusal :=
  .next (s.takeOrder OrderKind.amend.code payload crc (fieldSetFits payload) (fun s => s.amend payload))

/-! ### CANCEL and WITHDRAW_ALL (R50 to R52) -/

/-- The ending of a cancelled record (R50). -/
def cancelled : Ending := { outcome := .cancelled, reason := none }

/-- CANCEL's own checks and effect (R50, R51). -/
def State.cancel (s : State) (n : JunctionNumber) : Answer :=
  match s.junction? n with
  | none => s.refuse .refusedUnknown
  | some r =>
    if r.state.isOnAir then (s.requestRelease .cancel).accept []
    else (s.endRecord n cancelled).accept []

/-- CANCEL (R50). -/
def execCancel (payload : List Byte) (crc : Half) (s : State) : Host.Outcome State Fault Refusal :=
  .next (s.takeOrder OrderKind.cancel.code payload crc (payload.length == 2)
    (fun s => s.cancel (payloadNumber payload)))

/-- WITHDRAW_ALL's effect: every record not on air ends CANCELLED, in table order (R52). -/
def State.withdrawAll (s : State) : Answer :=
  let ns := s.numbersWhere (fun r => !r.state.isOnAir)
  (s.endRecords cancelled ns).accept [byte1 ns.length]

/-- WITHDRAW_ALL (R52). -/
def execWithdrawAll (payload : List Byte) (crc : Half) (s : State) : Host.Outcome State Fault Refusal :=
  .next (s.takeOrder OrderKind.withdrawAll.code payload crc payload.isEmpty State.withdrawAll)

/-! ### LAYOUT (R144) -/

/-- LAYOUT's own checks and effect (R144). -/
def State.layoutOrder (s : State) (p : List Byte) : Answer :=
  let l := decodeLayout p 0
  if s.bus.station = .unconfigured then s.refuse .refusedState
  else
    match l.valid, LoadMode.ofCode (num1 p 17) with
    | true, some m =>
      ({ s with layouts := s.layouts.stage l m }).accept
        [s.layouts.inactive.code, byteFlag s.layouts.staged.isSome]
    | _, _ => s.refuse .refusedRange

/-- LAYOUT (R144). -/
def execLayout (payload : List Byte) (crc : Half) (s : State) : Host.Outcome State Fault Refusal :=
  .next (s.takeOrder OrderKind.layout.code payload crc (payload.length == 18)
    (fun s => s.layoutOrder payload))

/-! ### RESUME_FETCH (R170) -/

/-- The engine resumes: an orphaned request is removed, a condemned frame given up, any other request sent
again (R170). -/
def State.resume (s : State) : State :=
  let s := { s with engine := { s.engine with retry := 0 } }
  if s.orphaned then s.engineIdle
  else if s.engine.condemned then s.damage .parity
  else s.reissue

/-- RESUME_FETCH's own check and effect (R170). -/
def State.resumeOrder (s : State) : Answer :=
  if s.engine.state = .halted then s.resume.accept [] else s.refuse .refusedState

/-- RESUME_FETCH (R170). -/
def execResumeFetch (payload : List Byte) (crc : Half) (s : State) : Host.Outcome State Fault Refusal :=
  .next (s.takeOrder OrderKind.resumeFetch.code payload crc payload.isEmpty State.resumeOrder)

/-! ### Queries (R182 to R184) -/

/-- QUERY_STATUS (R182). -/
def execQueryStatus (payload : List Byte) (crc : Half) (s : State) : Host.Outcome State Fault Refusal :=
  .next (s.takeOrder OrderKind.queryStatus.code payload crc payload.isEmpty
    (fun s => s.accept s.statusReport))

/-- QUERY_JUNCTION's own check and reply (R183). -/
def State.queryJunction (s : State) (n : JunctionNumber) : Answer :=
  match s.junction? n with
  | some r => s.accept (s.junctionReport r)
  | none => s.refuse .refusedUnknown

/-- QUERY_JUNCTION (R183). -/
def execQueryJunction (payload : List Byte) (crc : Half) (s : State) : Host.Outcome State Fault Refusal :=
  .next (s.takeOrder OrderKind.queryJunction.code payload crc (payload.length == 2)
    (fun s => s.queryJunction (payloadNumber payload)))

/-- QUERY_MIRROR's own check, reply and clearing (R184, R25). -/
def State.queryMirror (s : State) (choice : Nat) : Answer :=
  if choice = 0 then s.accept s.mirrorReport
  else if choice = 1 then s.clearCounts.accept s.mirrorReport
  else s.refuse .refusedRange

/-- QUERY_MIRROR (R184). -/
def execQueryMirror (payload : List Byte) (crc : Half) (s : State) : Host.Outcome State Fault Refusal :=
  .next (s.takeOrder OrderKind.queryMirror.code payload crc (payload.length == 1)
    (fun s => s.queryMirror (num1 payload 0)))

/-! ### READ_EVENTS and CLEAR_ALARM (R187, R191) -/

/-- READ_EVENTS's own check, reply and effect (R187). -/
def State.readEvents (s : State) (count : Nat) : Answer :=
  if 1 ≤ count ∧ count ≤ 8 then
    let out := s.reporting.events.take count
    ({ s with reporting := { s.reporting with events := s.reporting.events.drop count } }).accept
      (byte1 out.length :: out.flatMap Event.encode)
  else s.refuse .refusedRange

/-- READ_EVENTS (R187). -/
def execReadEvents (payload : List Byte) (crc : Half) (s : State) : Host.Outcome State Fault Refusal :=
  .next (s.takeOrder OrderKind.readEvents.code payload crc (payload.length == 1)
    (fun s => s.readEvents (num1 payload 0)))

/-- An alarm with its flag cleared; its count and last detail stay (R191). -/
def Alarm.clear (a : Alarm) : Alarm := { a with flag := false }

/-- CLEAR_ALARM's own checks and effect (R191). -/
def State.clearAlarm (s : State) (alarm : Nat) (count : Byte) : Answer :=
  match AlarmName.ofCode alarm with
  | none => s.refuse .refusedRange
  | some n =>
    let a := s.reporting.alarms.get n
    if a.count = count then
      ({ s with reporting :=
          { s.reporting with alarms := s.reporting.alarms.set n a.clear } }).accept []
    else { state := s, reply := { status := .refusedStale, payload := [a.count] } }

/-- CLEAR_ALARM (R191). -/
def execClearAlarm (payload : List Byte) (crc : Half) (s : State) : Host.Outcome State Fault Refusal :=
  .next (s.takeOrder OrderKind.clearAlarm.code payload crc (payload.length == 2)
    (fun s => s.clearAlarm (num1 payload 0) (byte1 (num1 payload 1))))

end Sys2Proof.Machine
end

