-- ==== Sys2Proof/Machine/CueBus.lean ====
section
/-! DEFINITION. The Cue Bus Interface (Chapter 2): station states, cycles, the own beacon, the judgement of
slots, read-back, the presence table, the group mismatch condition and the cycle close. -/

namespace Sys2Proof.Machine

/-! ### Slot positions (R14) -/

/-- Twenty-four times the moment at which slot `slot` of a cycle begins: the basis and (slot + 1) × P/24. -/
def Cycle.slotStart24 (cy : Cycle) (slot : Nat) : Nat := 24 * cy.basis + (slot + 1) * cy.period

/-- Twenty-four times the moment at which slot `slot` of a cycle ends: the basis and (slot + 2) × P/24. -/
def Cycle.slotEnd24 (cy : Cycle) (slot : Nat) : Nat := 24 * cy.basis + (slot + 2) * cy.period

/-! ### The presence table and the group mismatch condition (R21 to R29) -/

/-- One presence entry replaced. -/
def CueBus.setEntry (b : CueBus) (i : Nat) (e : PresenceEntry) : CueBus :=
  { b with presence := b.presence.setIfInBounds i e }

/-- At least one PRESENT peer entry has its mismatch flag set (R29). -/
def CueBus.mismatched (b : CueBus) (own : Nat) : Bool :=
  stations.any (fun i => i != own && (b.entry i).state == .present && (b.entry i).mismatch)

/-- The group mismatch condition is evaluated again; when it begins to hold, GROUP_MISMATCH is raised with
the peer whose beacon caused the change (R29). -/
def State.reevaluate (s : State) (own peer : Nat) : State :=
  let now := s.bus.mismatched own
  let was := s.bus.groupMismatch
  let s := { s with bus := { s.bus with groupMismatch := now } }
  if now && !was then s.raiseAlarm .groupMismatch (detailNat peer) none else s

/-- A peer entry after a GOOD beacon (R22, R28): `hf` is the frame of the slot. -/
def PresenceEntry.good (e : PresenceEntry) (own : Option Half) (hf : Frame) (h : HeardBeacon) :
    PresenceEntry :=
  { e with
    state := .present
    missed := 0
    heard := some { hf := hf, digest := h.digest, senderHf := h.senderHf, bitmap := h.bitmap }
    mismatch := own != some h.digest || h.senderHf != hf }

/-- A peer's slot is GOOD: its presence entry and its mirror entry take the beacon (R22, R58), and the group
mismatch condition is evaluated (R29). -/
def State.goodSlot (s : State) (own i : Nat) (hf : Frame) (h : HeardBeacon) : State :=
  let e := s.bus.entry i
  let s := { s with
    bus := s.bus.setEntry i (e.good s.bus.digest hf h)
    mirror := s.mirror.setEntry i (MirrorEntry.written h.claims hf) }
  let s := if e.state = .present then s else s.post .stationPresent none 0 (detailNat i)
  s.reevaluate own i

/-- A peer entry after a CORRUPT or SILENT slot, before any absence (R23). -/
def PresenceEntry.miss (e : PresenceEntry) (carrier : Bool) : PresenceEntry :=
  { e with
    missed := min (e.missed + 1) 8
    corrupt := if carrier then countHeld e.corrupt else e.corrupt
    silent := if carrier then e.silent else countHeld e.silent }

/-- A PRESENT peer has missed eight slots: its entry becomes ABSENT, its mirror entry is emptied, the group
mismatch condition is evaluated and STATION_ABSENT is posted (R23, R60). -/
def State.peerAbsent (s : State) (own i : Nat) : State :=
  let e := s.bus.entry i
  let s := { s with
    bus := s.bus.setEntry i { e with state := .absent, mismatch := false }
    mirror := s.mirror.setEntry i MirrorEntry.reset }
  (s.reevaluate own i).post .stationAbsent none 0 (detailNat i)

/-- A peer's slot is CORRUPT (`carrier`) or SILENT (R23). -/
def State.missedSlot (s : State) (own i : Nat) (carrier : Bool) : State :=
  let e := (s.bus.entry i).miss carrier
  let s := { s with bus := s.bus.setEntry i e }
  if e.state = .present ∧ 8 ≤ e.missed then s.peerAbsent own i else s

/-- The GOOD beacon heard in a slot, if any (R17). -/
def heardBeacon (heard : SlotHeard) (slot : Nat) : Option HeardBeacon :=
  match heard with
  | .noCarrier => none
  | .carrier bytes => goodBeacon slot bytes

/-- Carrier was present in the slot. -/
def heardCarrier : SlotHeard → Bool
  | .noCarrier => false
  | .carrier _ => true

/-- The judgement of a peer's slot is handed to its entries (R17). -/
def State.peerSlot (s : State) (own i : Nat) (hf : Frame) (heard : SlotHeard) : State :=
  match heardBeacon heard i with
  | some h => s.goodSlot own i hf h
  | none => s.missedSlot own i (heardCarrier heard)

/-! ### Leaving MEMBER (R20, R24, R32, R62, R97) -/

/-- The own presence entry's state (R24). -/
def CueBus.setOwn (b : CueBus) (own : Nat) (st : PresenceState) : CueBus :=
  b.setEntry own { b.entry own with state := st }

/-- The station leaves MEMBER for a silent state: no beacon is held or sent on, the own presence and mirror
entries are emptied, and the publisher acts (R20, R32, R62, R97). -/
def State.leaveMember (s : State) (own : Nat) (st : StationState) : State :=
  let s := { s with
    bus := { (s.bus.setOwn own .empty) with
      station := st, held := none, sending := none, txen := false }
    mirror := s.mirror.setEntry own MirrorEntry.reset }
  s.publisherLeaves

/-! ### Read-back and slot clash (R19, R20) -/

/-- The read-back matches: the own slot is GOOD and its bytes are those sent (R19). -/
def readBackMatches (own : Nat) (sent : List Byte) (heard : SlotHeard) : Bool :=
  match heard with
  | .noCarrier => false
  | .carrier bytes => (goodBeacon own bytes).isSome && bytes == sent

/-- The third mismatch in a row: SILENT(CLASH), and SLOT_CLASH is raised with the station number (R20). -/
def State.slotClash (s : State) (own : Nat) : State :=
  (s.leaveMember own .silentClash).raiseAlarm .slotClash (detailNat own) none

/-- The own slot of a MEMBER station has ended: CUE_TXEN is down, and the beacon sent is compared with what
was heard (R16, R19). -/
def State.readBack (s : State) (own : Nat) (sent : List Byte) (heard : SlotHeard) : State :=
  let count := if readBackMatches own sent heard then 0 else s.bus.mismatches + 1
  let s := { s with bus := { s.bus with txen := false, sending := none, mismatches := count } }
  if 3 ≤ count then s.slotClash own else s

/-- The own slot has ended: read back in MEMBER when a beacon was sent in it, received and discarded
otherwise (R18, R19; log 30). -/
def State.ownSlotEnd (s : State) (own : Nat) (heard : SlotHeard) : State :=
  match s.bus.station, s.bus.sending with
  | .member, some sent => s.readBack own sent heard
  | _, _ => s

/-- The slot that ends next has ended (R14, R17). -/
def State.slotEnded (s : State) (own : Nat) (cy : Cycle) (heard : SlotHeard) : State :=
  let s := { s with bus := { s.bus with cycle := some { cy with nextSlot := cy.nextSlot + 1 } } }
  if cy.nextSlot = own then s.ownSlotEnd own heard else s.peerSlot own cy.nextSlot cy.hf heard

/-! ### The cue bus at a frame boundary (R14, R16, R32) -/

/-- A boundary that carries HOLDOVER: LISTENING and MEMBER become SILENT(REFERENCE), and no cycle is open
(R14, R32). -/
def State.busHoldover (s : State) (own : Nat) : State :=
  let s := { s with bus := { s.bus with cycle := none } }
  match s.bus.station with
  | .listening => { s with bus := { s.bus with station := .silentReference, listening := 0 } }
  | .member =>
    let s := s.leaveMember own .silentReference
    { s with bus := { s.bus with listening := 0 } }
  | .unconfigured => s
  | .silentReference => s
  | .silentClash => s

/-- A cycle is opened for the frame of the boundary, timed from its basis (R14). No slot is under way at
that moment, so the station does not drive the bus (log 24). -/
def State.openCycle (s : State) : State :=
  let cy : Cycle :=
    { hf := s.timing.hf, basis := s.timing.basis, period := s.timing.period.getD 0, nextSlot := 0 }
  { s with bus := { s.bus with cycle := some cy, txen := false } }

/-- The held beacon is completed with the HF of the boundary, for the own slot of the cycle (R16). -/
def State.completeBeacon (s : State) : State :=
  { s with bus :=
      { s.bus with
        sending := s.bus.held.map (fun b => b.encode s.timing.hf)
        held := none } }

/-- A boundary that carries LOCKED: SILENT(REFERENCE) becomes LISTENING, a cycle opens in LISTENING, MEMBER
and SILENT(CLASH), and a MEMBER station completes its beacon (R14, R16, R32). -/
def State.busLocked (s : State) : State :=
  match s.bus.station with
  | .silentReference =>
    ({ s with bus := { s.bus with station := .listening, listening := 0 } }).openCycle
  | .listening => s.openCycle
  | .member => s.openCycle.completeBeacon
  | .silentClash => s.openCycle
  | .unconfigured => { s with bus := { s.bus with cycle := none } }

/-- The Cue Bus Interface at a frame boundary, by the reference state that the boundary carries. -/
def State.busBoundary (s : State) : State :=
  match s.config, s.timing.refState with
  | some c, .holdover => s.busHoldover c.station
  | some _, .locked => s.busLocked
  | some _, .seeking => s
  | none, _ => s

/-! ### The cycle close (R31, R35) -/

/-- A close at this moment is the entry close: the eighth in LISTENING, at which the station enters MEMBER
(R31). -/
def CueBus.entersMember (b : CueBus) : Bool := b.station == .listening && decide (8 ≤ b.listening + 1)

/-- A close in LISTENING counts, and the eighth makes the station MEMBER (R31). -/
def State.listenClose (s : State) (own : Nat) : State :=
  let k := s.bus.listening + 1
  if s.bus.entersMember then
    { s with bus :=
        { (s.bus.setOwn own .present) with station := .member, listening := k, mismatches := 0 } }
  else if s.bus.station = .listening then { s with bus := { s.bus with listening := k } }
  else s

/-- The close as it is issued after R31, with the results of the resolution; `entry` marks the entry close
(R35, R70). -/
def State.closeContext (s : State) (c : Configuration) (hf : Frame) (entry : Bool) : CloseContext :=
  { hf := hf
    station := s.bus.station
    entry := entry
    mismatch := s.bus.groupMismatch
    results := s.mirror.ownResults c.station
    own := c.station
    settle := c.settle
    horizon := c.horizon }

/-- The publisher acts on a close: its six stages in MEMBER, the declines of R98 otherwise (R77). -/
def State.publisherClose (s : State) (x : CloseContext) : State :=
  if x.station = .member then s.closeMember x else s.closeOutside x

/-- The cycle close: R31, then the resolution (R63), then the Claim Publisher (R77). -/
def State.close (s : State) (c : Configuration) (hf : Frame) : State :=
  let entry := s.bus.entersMember
  let s := { s with bus := { s.bus with cycle := none } }
  let s := s.listenClose c.station
  let s := { s with mirror := s.mirror.resolved c.concurrency hf }
  s.publisherClose (s.closeContext c hf entry)

/-! ### Commands -/

/-- SLOT_END (R17): the next slot of the open cycle ends. With no cycle open, or no slot left in it, no slot
ends and nothing changes (log 3). -/
def execSlotEnd (heard : SlotHeard) (s : State) : Host.Outcome State Fault Refusal :=
  match s.config, s.bus.cycle with
  | some c, some cy =>
    if cy.nextSlot < c.slots then .next (s.slotEnded c.station cy heard) else .next s
  | _, _ => .next s

/-- CYCLE_CLOSE (R35): the close of a cycle whose slots have all ended; otherwise there is no close and
nothing changes (log 3). -/
def execCycleClose (s : State) : Host.Outcome State Fault Refusal :=
  match s.config, s.bus.cycle with
  | some c, some cy => if cy.nextSlot = c.slots then .next (s.close c cy.hf) else .next s
  | _, _ => .next s

/-- Whether the own slot of a beacon to be sent begins next. -/
def State.ownSlotDue (s : State) : Bool :=
  match s.config, s.bus.cycle with
  | some c, some cy =>
    s.bus.station == .member && cy.nextSlot == c.station && s.bus.sending.isSome
  | _, _ => false

/-- OWN_SLOT_START (R16): CUE_TXEN is asserted in the own slot of a MEMBER station. In any other state the
station does not drive the bus and nothing changes (R16; log 3). -/
def execOwnSlotStart (s : State) : Host.Outcome State Fault Refusal :=
  if s.ownSlotDue then .next { s with bus := { s.bus with txen := true } } else .next s

end Sys2Proof.Machine
end

