-- ==== Sys2Proof/Machine/Markers.lean ====
section
/-! DEFINITION. The Marker Unit (Chapter 6): captures, the in-band detector, and the hand-over of captures to
the sequencer with their dispositions. -/

namespace Sys2Proof.Machine

/-- A capture record: one of the five start records, or the release record (Section 6.1). -/
inductive CaptureRecord where
  | start (source : MarkerSource)
  | release
  deriving DecidableEq, Repr

/-- The code of a capture record (Section 11.7). -/
def CaptureRecord.code : CaptureRecord → Byte
  | .start m => m.code
  | .release => 6

/-- The start record of a source. -/
def StartRecords.get (r : StartRecords) : MarkerSource → Option Capture
  | .mk0 => r.mk0
  | .mk1 => r.mk1
  | .mk2 => r.mk2
  | .mk3 => r.mk3
  | .inBand => r.inBand

/-- A start record replaced. -/
def StartRecords.set (r : StartRecords) (m : MarkerSource) (c : Option Capture) : StartRecords :=
  match m with
  | .mk0 => { r with mk0 := c }
  | .mk1 => { r with mk1 := c }
  | .mk2 => { r with mk2 := c }
  | .mk3 => { r with mk3 := c }
  | .inBand => { r with inBand := c }

/-- A capture record of the unit. -/
def Markers.get (m : Markers) : CaptureRecord → Option Capture
  | .start src => m.starts.get src
  | .release => m.release

/-- A capture record of the unit replaced. -/
def Markers.set (m : Markers) (rec : CaptureRecord) (c : Option Capture) : Markers :=
  match rec with
  | .start src => { m with starts := m.starts.set src c }
  | .release => { m with release := c }

/-- A capture is taken into a record (R102, R104). A record that is already valid keeps its capture; the new
one is discarded, which raises MARKER_OVERWRITE once for each capture held (R106). -/
def State.takeCapture (s : State) (rec : CaptureRecord) (src : MarkerSource)
    (captureFrame availability : Frame) : State :=
  match s.markers.get rec with
  | none =>
    let c : Capture :=
      { source := src, captureFrame := captureFrame, availability := availability, overwrite := false }
    { s with markers := s.markers.set rec (some c) }
  | some held =>
    if held.overwrite then s
    else
      ({ s with markers := s.markers.set rec (some { held with overwrite := true }) }).raiseAlarm
        .markerOverwrite (detailOf src.code) none

/-! ### Marker lines (R101, R102) -/

/-- The level that a configured edge changes to. -/
def ActiveEdge.level : ActiveEdge → Level
  | .rising => .high
  | .falling => .low

/-- The source of a marker line. -/
def lineSource : Fin 4 → MarkerSource
  | 0 => .mk0
  | 1 => .mk1
  | 2 => .mk2
  | 3 => .mk3

/-- The record that a line of a role feeds (Section 6.1). -/
def LineRole.feeds (role : LineRole) (i : Fin 4) : Option CaptureRecord :=
  match role with
  | .start => some (.start (lineSource i))
  | .release => some .release
  | .unused => none

/-- A settled change to `level` on a line takes a capture when it is the line's active edge (R101, R102),
and only while the station is configured and HF valid is yes (R100). -/
def State.lineEdge (s : State) (i : Fin 4) (level : Level) : State :=
  match s.config with
  | none => s
  | some c =>
    match (c.roles.get i).feeds i with
    | none => s
    | some rec =>
      if level = (c.edges.get i).level ∧ s.timing.hfValid then
        s.takeCapture rec (lineSource i) s.hf s.hf
      else s

/-! ### In-band codes (R103, R104) -/

/-- A marker packet with a correct check marks the current frame as carrying a watched code; a packet of a
frame that is not judged counts for none (R103). -/
def Markers.packet (m : Markers) (startCode releaseCode code : Half) : Markers :=
  if m.judged then
    { m with
      startSeen := m.startSeen || (startCode != 0 && code == startCode)
      releaseSeen := m.releaseSeen || (releaseCode != 0 && code == releaseCode) }
  else m

/-- A persistence count at a judgement, held at 3 (R104). -/
def persist (count : Nat) (seen : Bool) : Nat := if seen then min (count + 1) 3 else 0

/-- The judgement of the frame that a boundary ends, for both codes (R103, R104); `ended` is that frame's
HF. A count that goes from 2 to 3 takes a capture. -/
def State.judgeFrame (s : State) (ended : Frame) : State :=
  let m := s.markers
  if m.judged then
    let s := { s with markers := { m with
      startCount := persist m.startCount m.startSeen
      releaseCount := persist m.releaseCount m.releaseSeen } }
    let s := if m.startCount = 2 ∧ m.startSeen then
        s.takeCapture (.start .inBand) .inBand (subFrames ended 2) ended else s
    if m.releaseCount = 2 ∧ m.releaseSeen then
      s.takeCapture .release .inBand (subFrames ended 2) ended else s
  else s

/-- The frame that the boundary begins: nothing seen in it yet, and judged when the station is configured
(R103; HF valid is yes from any boundary on). -/
def State.beginFrameOfCodes (s : State) : State :=
  { s with markers :=
      { s.markers with startSeen := false, releaseSeen := false, judged := s.config.isSome } }

/-! ### Hand-over (R107, R108, R110 to R112) -/

/-- At a boundary that carries a time jump a capture's frames move by (new − old) (R108). -/
def Capture.moved (c : Capture) : Option (Frame × Frame) → Capture
  | some (old, new) =>
    { c with captureFrame := c.captureFrame + (new - old), availability := c.availability + (new - old) }
  | none => c

/-- The candidate first frame of a capture (R107). -/
def Capture.candidate (c : Capture) : Frame := c.availability + 1

/-- The addressed junction of a start capture: the earliest record in table order that is PRIMED, MARKED and
names the source (R110). -/
def State.addressed (s : State) (m : MarkerSource) : Option Junction :=
  s.table.find? (fun r =>
    r.state == .primed && r.fields.trigger == .marked && r.fields.source == some m)

/-- The disposition of a start capture with candidate first frame `first`, with the junction addressed when
there is one (R110). -/
def State.judgeStart (s : State) (m : MarkerSource) (first : Frame) : Disposition × Option Junction :=
  if s.sequencer.onAir.isSome then (.ignored, none)
  else
    match s.addressed m with
    | none => (.ignored, none)
    | some r =>
      if ahead r.fields.claimStart first then (.early, some r)
      else if ahead first r.fields.latestStart then (.ignored, none)
      else (.used, some r)

/-- The MARKER event of a capture that has been handed over (R112). -/
def State.postMarker (s : State) (rec : CaptureRecord) (c : Capture) (d : Disposition)
    (n : Option JunctionNumber) : State :=
  s.post .marker n
    (detailBytes rec.code c.source.code (d.code + (if c.overwrite then 128 else 0))) c.captureFrame

/-- A start capture is judged, and starts its junction when it is USED (R110, R118). The events of the start
stand before the capture's MARKER event: JUNCTION_STARTED, LAYOUT_LOADED and LAYOUT_DROPPED, or the JUNCTION_END
of a start without its promo (R185; log 16). -/
def State.handStart (s : State) (x : StartContext) (m : MarkerSource) (c : Capture) : State :=
  match s.judgeStart m c.candidate with
  | (.used, some r) =>
    (s.takeStart x r c.candidate .marked).postMarker (.start m) c .used (some r.number)
  | (d, r) => s.postMarker (.start m) c d (r.map (·.number))

/-- A release capture is judged: USED when a junction is on air, and then a request for early release, or
only noted when its candidate first frame is the junction's first frame (R111, R131; log 19). A RELEASE_NOTED
event stands before the capture's MARKER event (R185; log 16). -/
def State.handRelease (s : State) (c : Capture) : State :=
  match s.sequencer.onAir with
  | none => s.postMarker .release c .ignored none
  | some n =>
    let s := if s.sequencer.first = some c.candidate then s.noteRelease n .releaseMarker
      else s.requestRelease .releaseMarker
    s.postMarker .release c .used (some n)

/-- One record is handed over when it is valid, and becomes invalid (R107). -/
def State.handOver (s : State) (x : StartContext) (jump : Option (Frame × Frame)) (rec : CaptureRecord) :
    State :=
  match s.markers.get rec with
  | none => s
  | some held =>
    let c := held.moved jump
    let s := { s with markers := s.markers.set rec none }
    match rec with
    | .release => s.handRelease c
    | .start m => s.handStart x m c

/-- The records in the order of their hand-over (R107). -/
def handOverOrder : List CaptureRecord :=
  [.release, .start .mk0, .start .mk1, .start .mk2, .start .mk3, .start .inBand]

/-- The listed records are handed over, in that order. -/
def State.handOverAll (s : State) (x : StartContext) (jump : Option (Frame × Frame)) :
    List CaptureRecord → State
  | [] => s
  | rec :: recs => (s.handOver x jump rec).handOverAll x jump recs

/-- The Marker Unit's operation at a frame boundary (R107): the judgement of the frame that ends, then the
hand-over of every valid record. -/
def State.markersBoundary (s : State) (x : StartContext) (ended : Frame)
    (jump : Option (Frame × Frame)) : State :=
  ((s.judgeFrame ended).beginFrameOfCodes).handOverAll x jump handOverOrder

/-! ### Commands -/

/-- LINE_EDGE_SETTLED (R101, R102): the settled level of a marker line has changed. A level that the line
already stands at is no change. -/
def execLineEdgeSettled (line : Fin 4) (level : Level) (s : State) : Host.Outcome State Fault Refusal :=
  if s.markerPins.get line = level then .next s
  else .next (({ s with markerPins := s.markerPins.set line level }).lineEdge line level)

/-- MARKER_PACKET (R103): a packet whose check fails is disregarded. -/
def execMarkerPacket (code check : Half) (s : State) : Host.Outcome State Fault Refusal :=
  match s.config with
  | some c =>
    if crc16 (halfBytes code) = check then
      .next { s with markers := s.markers.packet c.startCode c.releaseCode code }
    else .next s
  | none => .next s

end Sys2Proof.Machine
end

