-- ==== Sys2Proof/Machine/Timing.lean ====
section
/-! DEFINITION. The Reference Timing Unit (Chapter 1): pulses, windows, count words, lock, holdover and
relock, and the one operation that issues a frame boundary to every block (R7). -/

namespace Sys2Proof.Machine

/-! ### The frame boundary (R7) -/

/-- A frame boundary: the HF of the frame that ends, its origin, its time jump (old and new value) when it
carries one, whether it relocks the reference, and whether it loses it. Its own HF and its reference state
are those of the unit, which has set them. -/
structure Boundary where
  ended : Frame
  origin : Origin
  jump : Option (Frame × Frame)
  relock : Bool
  loss : Bool
  deriving DecidableEq, Repr

/-- The TIME_JUMP event of a boundary that carries a jump: the new HF, the old value and the new value
(R7). -/
def State.postJump (s : State) : Option (Frame × Frame) → State
  | some (old, new) => s.postAt new .timeJump none old new
  | none => s

/-- The boundary carries HOLDOVER or relocks, and the station is configured (R99). -/
def State.declineDue (s : State) (b : Boundary) : Bool :=
  s.config.isSome && (s.timing.refState == .holdover || b.relock)

/-- One block's action at a boundary; `x` says which of the others are still to come. -/
def State.boundaryOp (s : State) (b : Boundary) (x : StartContext) : BoundaryOp → State
  | .cueBus => s.busBoundary
  | .decline => if s.declineDue b then s.declineSilent s.hf RecordState.isUncommitted else s
  | .jumpEndings => if b.jump.isSome then s.jumpEndings else s
  | .markers => s.markersBoundary x b.ended b.jump
  | .sequencer => s.sequencerBoundary x
  | .ring => s.ringAdvance
  | .layoutLoad => s.loadAtFrame
  | .referenceLost => if b.loss then s.raiseAlarm .referenceLost 0 none else s

/-- What a start made now must know of the operations that remain (R118, R173; log 16). -/
def startContext (storeFirst : Bool) (rest : List BoundaryOp) : StartContext :=
  { beforeSequencer := rest.contains .sequencer
    beforeRing := rest.contains .ring
    storeFirst := storeFirst }

/-- The listed operations are taken in turn. -/
def State.boundaryOps (s : State) (b : Boundary) (storeFirst : Bool) : List BoundaryOp → State
  | [] => s
  | op :: rest => (s.boundaryOp b (startContext storeFirst rest) op).boundaryOps b storeFirst rest

/-- Every operation of a boundary. -/
def allBoundaryOps : List BoundaryOp :=
  [.cueBus, .decline, .jumpEndings, .markers, .sequencer, .ring, .layoutLoad, .referenceLost]

/-- The order of the operations at one boundary: those that the command names, each once, and then the rest
(log 4). -/
def schedule (o : BoundaryOrder) : List BoundaryOp := (o.ops ++ allBoundaryOps).eraseDups

/-- The unit has set HF and the reference state: TIME_JUMP is posted first (R7), then each block acts. -/
def State.issueBoundary (s : State) (b : Boundary) (o : BoundaryOrder) : State :=
  (s.postJump b.jump).boundaryOps b o.storeFirst (schedule o)

/-! ### Windows (R4, R8) -/

/-- Where a moment lies against a window. -/
inductive WindowPlace where
  | before
  | inside
  | after
  deriving DecidableEq, Repr

/-- The window from (P − P/64) to (P + P/64) after a moment, compared exactly (R4, R8; log 2). -/
def windowPlace (p start moment : Nat) : WindowPlace :=
  if 64 * (moment - start) < 63 * p then .before
  else if 64 * (moment - start) ≤ 65 * p then .inside
  else .after

/-- An interval of 16.0 ms to 42.0 ms can be a frame (R4). -/
def periodInRange (d : Nat) : Bool := decide (16000000 ≤ d) && decide (d ≤ 42000000)

/-! ### The pulse run (R4) -/

/-- A pulse opens a run as its first pulse (R4). -/
def Timing.openRun (t : Timing) (m : Moment) : Timing :=
  { t with pulseRun := 1, runPeriod := none, lastPulse := m }

/-- A pulse is good: the run goes on (R4). -/
def Timing.goodPulse (t : Timing) (m : Moment) : Timing :=
  { t with pulseRun := min (t.pulseRun + 1) 4, lastPulse := m }

/-- The second pulse of a run measures the run period, or opens a new run (R4). -/
def Timing.secondPulse (t : Timing) (m : Moment) : Timing :=
  if periodInRange (m - t.lastPulse) then
    { t with pulseRun := 2, runPeriod := some (m - t.lastPulse), lastPulse := m }
  else t.openRun m

/-- A pulse is judged in the pulse run (R4). A pulse after the window whose close has not been taken opens a
new run, as it does once the close has broken this one. -/
def Timing.judgePulse (t : Timing) (m : Moment) : Timing :=
  if t.pulseRun = 0 then t.openRun m
  else
    match t.runPeriod with
    | none => t.secondPulse m
    | some p => if windowPlace p t.lastPulse m = .inside then t.goodPulse m else t.openRun m

/-- The run is broken (R4). -/
def Timing.breakRun (t : Timing) : Timing := { t with pulseRun := 0, runPeriod := none }

/-- The count is adopted and the last value fresh (R5). -/
def Timing.countReady (t : Timing) : Bool := t.trackRun == 3 && t.trackFresh

/-- The pulse just judged completes a lock or a relock: the run is 4, the count adopted and fresh
(R6, R13). -/
def Timing.lockDue (t : Timing) : Bool := t.pulseRun == 4 && t.countReady

/-! ### Count words (R5, R10) -/

/-- `v` continues a run whose last value is `last`. -/
def continuesRun (last : Option Frame) (v : Frame) : Bool :=
  match last with
  | some u => v == u + 1
  | none => false

/-- The count track takes a word (R5). -/
def Timing.track (t : Timing) : CountWord → Timing
  | .good v =>
    { t with
      trackRun := if continuesRun t.trackLast v then min (t.trackRun + 1) 3 else 1
      trackLast := some v
      trackFresh := true }
  | .bad => { t with trackRun := 0, trackLast := none }

/-- The jump candidate is cleared, and any pending adoption removed (R10). -/
def Timing.clearJump (t : Timing) : Timing :=
  { t with jumpRun := 0, jumpLast := none, pendingAdoption := none }

/-- A disagreeing word feeds the jump candidate (R10): the third in a row becomes the pending adoption; with
one pending, a word that continues replaces it and a word that does not removes it. -/
def Timing.feedJump (t : Timing) (v : Frame) : Timing :=
  if continuesRun t.jumpLast v then
    if t.jumpRun + 1 = 3 then
      { t with jumpRun := 0, jumpLast := some v, pendingAdoption := some v }
    else
      { t with
        jumpRun := t.jumpRun + 1
        jumpLast := some v
        pendingAdoption := if t.pendingAdoption.isSome then some v else none }
  else { t with jumpRun := 1, jumpLast := some v, pendingAdoption := none }

/-- A count word in LOCKED is compared with HF + 1 (R10). -/
def Timing.compareWord (t : Timing) : CountWord → Timing
  | .good v => if v = t.hf + 1 then t.clearJump else t.feedJump v
  | .bad => t.clearJump

/-- A count word: the track always, the jump candidate in LOCKED (R5, R10, R12). -/
def Timing.word (t : Timing) (w : CountWord) : Timing :=
  if t.refState = .locked then (t.track w).compareWord w else t.track w

/-! ### Boundaries of LOCKED (R8, R9, R11) -/

/-- The HF of the next boundary in LOCKED: the pending adoption, or HF + 1 (R11). -/
def Timing.nextHf (t : Timing) : Frame := t.pendingAdoption.getD (t.hf + 1)

/-- The time jump of a boundary that sets HF to `new`: none when that is HF + 1 (R11, R13). -/
def Timing.jumpTo (t : Timing) (new : Frame) : Option (Frame × Frame) :=
  if new = t.hf + 1 then none else some (t.hf + 1, new)

/-- HF at a boundary of LOCKED, with the pending adoption applied and removed (R11). -/
def Timing.advanceHf (t : Timing) : Timing := { t with hf := t.nextHf, pendingAdoption := none }

/-- A boundary of LOCKED: its time jump is that of the HF it carries (R11). -/
def Timing.lockedBoundary (t : Timing) (origin : Origin) (loss : Bool) : Boundary :=
  { ended := t.hf, origin := origin, jump := t.jumpTo t.nextHf, relock := false, loss := loss }

/-- A good pulse in LOCKED: a PULSE boundary, with the pulse as its basis (R8). -/
def State.lockedPulse (s : State) (m : Moment) (o : BoundaryOrder) : State :=
  let t := s.timing
  let s := { s with timing :=
    { t.advanceHf with basis := m, missing := 0, trackFresh := false } }
  s.issueBoundary (t.lockedBoundary .pulse false) o

/-- The first missing pulse: a SUBSTITUTE boundary, based on the moment the pulse was due (R8). -/
def State.substitute (s : State) (p : Nat) (o : BoundaryOrder) : State :=
  let t := s.timing
  let s := { s with timing :=
    { t.advanceHf with basis := t.basis + p, missing := 1, trackFresh := false } }
  s.issueBoundary (t.lockedBoundary .substitute false) o

/-- The second missing pulse in a row: the reference is lost (R9). -/
def State.loseReference (s : State) (p : Nat) (o : BoundaryOrder) : State :=
  let t := s.timing
  let s := { s with timing :=
    { t.advanceHf with
      refState := .holdover
      basis := t.basis + p
      freeRun := some (t.basis + p + p)
      missing := 0
      jumpRun := 0
      jumpLast := none
      pulseRun := 0
      runPeriod := none } }
  s.issueBoundary (t.lockedBoundary .freeRun true) o

/-! ### Lock and relock (R6, R13) -/

/-- The unit at a lock or relock pulse: LOCKED at the last value of the count track (R6, R13). -/
def Timing.lockAt (t : Timing) (m : Moment) (v : Frame) : Timing :=
  { t with
    refState := .locked
    hf := v
    hfValid := true
    period := t.runPeriod
    pulseRun := 0
    runPeriod := none
    missing := 0
    trackFresh := false
    jumpRun := 0
    jumpLast := none
    pendingAdoption := none
    freeRun := none
    basis := m }

/-- The first lock: the first boundary, with no time jump (R6). -/
def State.lock (s : State) (m : Moment) (v : Frame) (o : BoundaryOrder) : State :=
  let t := s.timing
  let s := { s with timing := t.lockAt m v }
  s.issueBoundary { ended := t.hf, origin := .pulse, jump := none, relock := false, loss := false } o

/-- The relock: a PULSE boundary that ends the frame in progress, with a time jump when the adopted value is
not HF + 1 (R13). -/
def State.relock (s : State) (m : Moment) (v : Frame) (o : BoundaryOrder) : State :=
  let t := s.timing
  let s := { s with timing := t.lockAt m v }
  s.issueBoundary
    { ended := t.hf, origin := .pulse, jump := t.jumpTo v, relock := true, loss := false } o

/-- A pulse in SEEKING or HOLDOVER: judged in the run, and a lock or relock when it is due. Any other
accepted pulse clears the fresh flag (R4 to R6, R13). -/
def State.runPulse (s : State) (m : Moment) (o : BoundaryOrder) : State :=
  let t := s.timing.judgePulse m
  match t.lockDue, t.trackLast with
  | true, some v =>
    let s := { s with timing := t }
    if t.refState = .holdover then s.relock m v o else s.lock m v o
  | _, _ => { s with timing := { t with trackFresh := false } }

/-! ### Commands -/

/-- REFERENCE_PULSE (R4, R8): judged against the LOCKED window, where a pulse outside it is a stray and is
discarded, or in the pulse run. -/
def execReferencePulse (m : Moment) (o : BoundaryOrder) (s : State) : Host.Outcome State Fault Refusal :=
  match s.timing.refState, s.timing.period with
  | .locked, some p =>
    if windowPlace p s.timing.basis m = .inside then .next (s.lockedPulse m o) else .next s
  | .locked, none => .next s
  | .seeking, _ => .next (s.runPulse m o)
  | .holdover, _ => .next (s.runPulse m o)

/-- REFERENCE_WINDOW_CLOSE (R4, R8, R9): in LOCKED a SUBSTITUTE boundary or the loss of the reference; in a
pulse run the run is broken. With no window open nothing closes and nothing changes (log 3). -/
def execReferenceWindowClose (o : BoundaryOrder) (s : State) : Host.Outcome State Fault Refusal :=
  match s.timing.refState, s.timing.period with
  | .locked, some p =>
    if s.timing.missing = 0 then .next (s.substitute p o) else .next (s.loseReference p o)
  | .locked, none => .next s
  | _, _ =>
    if 2 ≤ s.timing.pulseRun then .next { s with timing := s.timing.breakRun } else .next s

/-- A FREE_RUN boundary of HOLDOVER: HF + 1, and the timer runs for another period (R12). Its basis is the moment
of the expiry; R8 and R9 define a basis for PULSE and SUBSTITUTE boundaries and for the loss alone (log 34). -/
def State.freeRunBoundary (s : State) (due : Moment) (p : Nat) (o : BoundaryOrder) : State :=
  let t := s.timing
  let s := { s with timing :=
    { t with hf := t.hf + 1, basis := due, freeRun := some (due + p) } }
  s.issueBoundary { ended := t.hf, origin := .freeRun, jump := none, relock := false, loss := false } o

/-- FREE_RUN_EXPIRY (R12). The timer runs in HOLDOVER alone; elsewhere it does not expire and nothing
changes (log 3). -/
def execFreeRunExpiry (o : BoundaryOrder) (s : State) : Host.Outcome State Fault Refusal :=
  match s.timing.refState, s.timing.freeRun, s.timing.period with
  | .holdover, some due, some p => .next (s.freeRunBoundary due p o)
  | _, _, _ => .next s

/-- COUNT_WORD (R5, R10). -/
def execCountWord (w : CountWord) (s : State) : Host.Outcome State Fault Refusal :=
  .next { s with timing := s.timing.word w }

/-- RESET (R194, R3, R21, R33, R57, R76, R105, R114, R143, R160, R172): every block goes to its reset state.
The levels on the marker pins and the commands that wait are not the part's to change (log 5, log 6). -/
def execReset (s : State) : Host.Outcome State Fault Refusal :=
  .next { State.reset with markerPins := s.markerPins, pending := s.pending }

end Sys2Proof.Machine
end

