-- ==== Sys2Proof/Machine/Dispatch.lean ====
section
/-! DEFINITION. One arm for each command. -/

namespace Sys2Proof.Machine

/-- The effect of a command on everything but the queue of commands. -/
def exec (i : Instr) (s : State) : Host.Outcome State Fault Refusal :=
  match i with
  | .reset => Sys2Proof.Machine.execReset s
  | .referencePulse moment order => Sys2Proof.Machine.execReferencePulse moment order s
  | .referenceWindowClose order => Sys2Proof.Machine.execReferenceWindowClose order s
  | .freeRunExpiry order => Sys2Proof.Machine.execFreeRunExpiry order s
  | .countWord word => Sys2Proof.Machine.execCountWord word s
  | .slotEnd heard => Sys2Proof.Machine.execSlotEnd heard s
  | .cycleClose => Sys2Proof.Machine.execCycleClose s
  | .lineEdgeSettled line level => Sys2Proof.Machine.execLineEdgeSettled line level s
  | .markerPacket code check => Sys2Proof.Machine.execMarkerPacket code check s
  | .storeBlock index header payload parity => Sys2Proof.Machine.execStoreBlock index header payload parity s
  | .storeEnd => Sys2Proof.Machine.execStoreEnd s
  | .storeDisconnect => Sys2Proof.Machine.execStoreDisconnect s
  | .storeRetry => Sys2Proof.Machine.execStoreRetry s
  | .backoffExpiry => Sys2Proof.Machine.execBackoffExpiry s
  | .storeAbort => Sys2Proof.Machine.execStoreAbort s
  | .noAnswerLimit => Sys2Proof.Machine.execNoAnswerLimit s
  | .oselDeasserted => Sys2Proof.Machine.execOselDeasserted s
  | .configure payload crc => Sys2Proof.Machine.execConfigure payload crc s
  | .plan payload crc => Sys2Proof.Machine.execPlan payload crc s
  | .amend payload crc => Sys2Proof.Machine.execAmend payload crc s
  | .cancel payload crc => Sys2Proof.Machine.execCancel payload crc s
  | .withdrawAll payload crc => Sys2Proof.Machine.execWithdrawAll payload crc s
  | .layout payload crc => Sys2Proof.Machine.execLayout payload crc s
  | .resumeFetch payload crc => Sys2Proof.Machine.execResumeFetch payload crc s
  | .queryStatus payload crc => Sys2Proof.Machine.execQueryStatus payload crc s
  | .queryJunction payload crc => Sys2Proof.Machine.execQueryJunction payload crc s
  | .queryMirror payload crc => Sys2Proof.Machine.execQueryMirror payload crc s
  | .readEvents payload crc => Sys2Proof.Machine.execReadEvents payload crc s
  | .clearAlarm payload crc => Sys2Proof.Machine.execClearAlarm payload crc s
  | .oselAsserted => Sys2Proof.Machine.execOselAsserted s
  | .unknownOrderKind kind payload crc => Sys2Proof.Machine.execUnknownOrderKind kind payload crc s
  | .ownSlotStart => Sys2Proof.Machine.execOwnSlotStart s

end Sys2Proof.Machine
end

