-- ==== Sys2Proof/Machine/Compositor.lean ====
section
/-! DEFINITION. What the Compositor shows (Sections 8.5 to 8.7): the output of the present frame as a function
of the state that the boundary has left and of the programme picture of the frame, which no command carries
(log 9). -/

namespace Sys2Proof.Machine

/-- A picture: the value at a column and a row of the 1920 × 1080 grid. -/
abbrev Picture := Nat → Nat → Pixel

/-- What a junction frame is composed from (R152): the credits window, the promo window, the fill code, and the
opacity as a fraction. -/
structure FrameView where
  credits : Window
  promo : Window
  fill : Nat
  num : Nat
  den : Nat
  deriving DecidableEq, Repr

/-- floor(full + (target − full) × n / d), over the whole expression (R142, R153, R155). -/
def interpolate (full target n d : Nat) : Nat :=
  (((full * d : Nat) : Int) + ((target : Int) - full) * n) / d |>.toNat

/-- The credits window n / d of the way from the full grid to a target (R153, R155). -/
def Window.fromFull (target : Window) (n d : Nat) : Window :=
  { x := interpolate 0 target.x n d
    y := interpolate 0 target.y n d
    width := interpolate 1920 target.width n d
    height := interpolate 1080 target.height n d }

/-- A frame n / d of the way to a layout, at opacity n / d (R153, R155). -/
def Layout.view (l : Layout) (n d : Nat) : FrameView :=
  { credits := l.credits.fromFull n d, promo := l.promo, fill := l.fill, num := n, den := d }

/-- A frame that shows a layout exactly, at opacity 1 (R154). -/
def Layout.heldView (l : Layout) : FrameView :=
  { credits := l.credits, promo := l.promo, fill := l.fill, num := 1, den := 1 }

/-- The record on air. -/
def State.onAirJunction? (s : State) : Option Junction :=
  match s.sequencer.onAir with
  | some n => s.junction? n
  | none => none

/-- What the present frame is composed from; nothing in pass-through (R149, R153 to R155, R157). -/
def State.frameView (s : State) : Option FrameView :=
  match s.compositor, s.sequencer.phase, s.onAirJunction? with
  | .junction, .squeezeIn, some r => some (s.layouts.activeLayout.view s.sequencer.ramp r.fields.rin)
  | .junction, .hold, some _ => some s.layouts.activeLayout.heldView
  | .junction, .release, some r =>
    some (s.layouts.activeLayout.view s.sequencer.releaseLeft r.fields.rout)
  | _, _, _ => none

/-- The uniform grey of a fill code: k/15 of the way from nominal black to nominal white, rounded down,
whichever of the two levels is the greater number (R142). -/
def fillPixel (k : Nat) : Pixel :=
  { luma := interpolate Config.nominalBlack Config.nominalWhite k 15
    cb := Config.neutralChroma
    cr := Config.neutralChroma }

/-- A window covers a grid position (Section 8.1). -/
def Window.covers (w : Window) (u v : Nat) : Bool :=
  decide (w.x ≤ u) && decide (u < w.x + w.width) && decide (w.y ≤ v) && decide (v < w.y + w.height)

/-- The source column of a window's column (R152). -/
def Window.sourceColumn (w : Window) (u : Nat) : Nat := (u - w.x) * 1920 / w.width

/-- The source row of a window's row (R152). -/
def Window.sourceRow (w : Window) (v : Nat) : Nat := (v - w.y) * 1080 / w.height

/-- The value of a promo frame at a position: block b carries rows 8b to 8b + 7, row by row, two positions to
a payload word (Section 9.1). -/
def RingSlot.pixel (t : RingSlot) (col row : Nat) : Pixel :=
  unpackPosition (((t.data.getD (row / 8) []).getD (row % 8 * 960 + col / 2) 0)) (col % 2 == 1)

/-- The slot that the ring holds SHOWN for the on-air junction (R156). -/
def State.shownSlot? (s : State) : Option RingSlot :=
  s.ring.find? (fun t => t.state == .shown && s.ring.onAir == some t.junction)

/-- The promo value at a position; fill code 0 with no SHOWN slot (R156). -/
def State.promoPixel (s : State) (col row : Nat) : Pixel :=
  match s.shownSlot? with
  | some t => t.pixel col row
  | none => fillPixel 0

/-- The programme value at a position; fill code 0 when no picture arrives (R150). -/
def programmePixel (programme : Option Picture) (col row : Nat) : Pixel :=
  match programme with
  | some p => p col row
  | none => fillPixel 0

/-- The blend of one component (R152). -/
def blend (n d promo under : Nat) : Nat := (promo * n + under * (d - n)) / d

/-- The blend of a promo value over an under value, component by component (R152). -/
def Pixel.blend (n d : Nat) (promo under : Pixel) : Pixel :=
  { luma := Machine.blend n d promo.luma under.luma
    cb := Machine.blend n d promo.cb under.cb
    cr := Machine.blend n d promo.cr under.cr }

/-- The under value of a junction frame (R152). -/
def FrameView.under (w : FrameView) (programme : Option Picture) (u v : Nat) : Pixel :=
  if w.credits.covers u v then
    programmePixel programme (w.credits.sourceColumn u) (w.credits.sourceRow v)
  else fillPixel w.fill

/-- The output at column `u` and row `v` of the present frame (R151, R152). -/
def State.outputPixel (s : State) (programme : Option Picture) (u v : Nat) : Pixel :=
  match s.frameView with
  | none => programmePixel programme u v
  | some w =>
    if w.promo.covers u v then
      Pixel.blend w.num w.den (s.promoPixel (w.promo.sourceColumn u) (w.promo.sourceRow v))
        (w.under programme u v)
    else w.under programme u v

/-- The ancillary data of the output: that of the programme picture, in both modes; none with no picture
(R150). -/
def outputAncillary (programme : Option Picture) (packets : List (List Nat)) : List (List Nat) :=
  if programme.isSome then packets else []

end Sys2Proof.Machine
end

