-- ==== Sys2Proof/Safety.lean ====
section
/-! DEFINITION. What holds of the part at all times: the invariants that the statements are about. -/

namespace Sys2Proof.Machine

/-! ### Reference Timing Unit (Section 1.2) -/

/-- The ranges of the unit's items and what the reference state says of them (table of Section 1.2). -/
structure Timing.Sound (t : Timing) : Prop where
  pulseRun : t.pulseRun ≤ 4
  trackRun : t.trackRun ≤ 3
  jumpRun : t.jumpRun ≤ 2
  missing : t.missing ≤ 1
  runPeriod : ∀ p, t.runPeriod = some p → 16000000 ≤ p ∧ p ≤ 42000000
  period : ∀ p, t.period = some p → 16000000 ≤ p ∧ p ≤ 42000000
  measured : t.runPeriod.isSome ↔ 2 ≤ t.pulseRun
  tracked : t.trackLast.isSome ↔ 1 ≤ t.trackRun
  valid : t.hfValid = true ↔ t.refState ≠ .seeking
  known : t.period.isSome ↔ t.refState ≠ .seeking
  before : t.refState = .seeking → t.hf = 0
  locked : t.refState = .locked → t.pulseRun = 0
  jump : t.refState ≠ .locked → t.jumpRun = 0 ∧ t.pendingAdoption = none ∧ t.missing = 0
  timer : t.freeRun.isSome ↔ t.refState = .holdover

/-! ### The event queue (R185) -/

/-- At most 32 events, whose sequence numbers ascend by one from the oldest to the newest, the next one being
the next sequence number (R185). -/
structure Reporting.Sound (r : Reporting) : Prop where
  room : r.events.length ≤ 32
  ascend : ∀ i e, r.events[i]? = some e →
    e.seq = r.nextSeq - BitVec.ofNat 16 (r.events.length - i)

/-! ### The Junction Table (R36, R38, R39) -/

/-- The field sets whose claim intervals a record occupies: its own, and a pending amendment's (R39). -/
def Junction.occupied (r : Junction) : List FieldSet := r.fields :: (r.pending.map (·.fields)).toList

/-- At most 16 records, numbered from 1 on, no two with one number, and no two whose occupied intervals
intersect (R36, R38, R39). -/
structure TableSound (t : List Junction) : Prop where
  room : t.length ≤ 16
  numbered : ∀ a ∈ t, a.number ≠ 0
  distinct : (t.map (·.number)).Nodup
  apart : ∀ a ∈ t, ∀ b ∈ t, a.number ≠ b.number →
    ∀ f ∈ a.occupied, ∀ g ∈ b.occupied, f.overlaps g = false

/-- The claim starts, those of pending amendments among them, lie within half the circle of frame values, so that R1
orders any two of them. The planning reach is there to keep them so (Section 3.1). -/
def StartsTogether (t : List Junction) : Prop :=
  ∃ base : Frame, ∀ a ∈ t, ∀ f ∈ a.occupied, (f.claimStart - base).toNat < 8388608

/-- The records stand in ascending order of claim start (R38): none starts ahead of a later one. -/
def InOrder (t : List Junction) : Prop :=
  t.Pairwise (fun a b => ahead a.fields.claimStart b.fields.claimStart = false)

/-! ### The Frame Ring (R172) -/

/-- The ring order lists each slot that is not FREE, once (R172). -/
structure Ring.Sound (r : Ring) : Prop where
  once : r.order.Nodup
  listed : ∀ i, i ∈ r.order ↔ ∃ t, r.slots[i]? = some (some t)

/-- The number of slots: D once configured, none before (R172). -/
def State.depth (s : State) : Nat :=
  match s.config with
  | some c => c.depth
  | none => 0

/-- The ring is sound and has its slots. -/
structure State.RingSound (s : State) : Prop where
  ring : s.ring.Sound
  slots : s.ring.slots.length = s.depth

/-! ### The Cue Bus Interface (Chapter 2) -/

/-- The ranges of a presence entry, and what its state says of it (Section 2.5, R23). -/
structure PresenceEntry.Sound (e : PresenceEntry) : Prop where
  missed : e.missed ≤ 8
  corrupt : e.corrupt ≤ 65535
  silent : e.silent ≤ 65535
  absent : e.state = .absent → e.missed = 8
  flag : e.mismatch = true → e.state = .present

/-- An own entry as R24 keeps it: the state alone changes. -/
def PresenceEntry.Own (e : PresenceEntry) : Prop := e = { PresenceEntry.reset with state := e.state }

/-- The Cue Bus Interface of a part with a configuration record `c`. -/
structure State.BusConfigured (s : State) (c : Configuration) : Prop where
  station : s.bus.station ≠ .unconfigured
  digest : s.bus.digest = some c.digest
  own : (s.bus.entry c.station).Own
  ownPresent : (s.bus.entry c.station).state = .present ↔ s.bus.station = .member
  condition : s.bus.groupMismatch = s.bus.mismatched c.station
  slots : ∀ cy, s.bus.cycle = some cy → cy.nextSlot ≤ c.slots
  drives : s.bus.txen = true → s.bus.station = .member ∧ s.bus.sending.isSome ∧
    ∃ cy, s.bus.cycle = some cy ∧ cy.nextSlot = c.station

/-- The Cue Bus Interface of a part without one: as after reset (R33, R21). -/
def State.BusIdle (s : State) : Prop := s.bus = CueBus.reset

/-- The Cue Bus Interface holds what its chapter says it holds. -/
structure State.BusSound (s : State) : Prop where
  listening : s.bus.listening ≤ 8
  counting : s.bus.station = .listening → s.bus.listening ≤ 7
  mismatches : s.bus.mismatches ≤ 3
  driving : s.bus.station = .member → s.bus.mismatches ≤ 2
  entries : ∀ i, (s.bus.entry i).Sound
  held : s.bus.held.isSome → s.bus.station = .member
  sending : s.bus.sending.isSome → s.bus.station = .member
  configured : ∀ c, s.config = some c → s.BusConfigured c ∧ c.station < c.slots ∧ c.slots ≤ 16
  idle : s.config = none → s.BusIdle

/-! ### The Claim Mirror (R56, R60) -/

/-- No entry holds more than four claims, and an entry that holds claims belongs to a PRESENT station
(R56, R60, R62). -/
structure State.MirrorSound (s : State) : Prop where
  four : ∀ i, (s.mirror.entry i).claims.length ≤ 4
  heard : ∀ i, (s.mirror.entry i).claims ≠ [] → (s.bus.entry i).state = .present

/-- The whole part. -/
structure State.Sound (s : State) : Prop where
  timing : s.timing.Sound
  reporting : s.reporting.Sound
  table : TableSound s.table
  ring : s.RingSound
  bus : s.BusSound
  mirror : s.MirrorSound

/-! ### The terms of the statements -/

/-- What the slots, closes, boundaries, markers and store words leave alone: the configuration, the exchange on the
order port, the settled levels of the marker pins and the commands that wait. -/
structure State.SameAround (s t : State) : Prop where
  config : t.config = s.config
  exchange : t.exchange = s.exchange
  markerPins : t.markerPins = s.markerPins
  pending : t.pending = s.pending

/-- A count word `v` equals the last value of a run plus 1 (R5, R10). -/
def Continues (last : Option Frame) (v : Frame) : Prop := ∃ u, last = some u ∧ v = u + 1

/-- The count track of `t` after a word, `q` being the unit before it (R5). -/
def Timing.TrackTook (q t : Timing) : CountWord → Prop
  | .good v =>
    t.trackLast = some v ∧ t.trackFresh = true ∧
      (Continues q.trackLast v → t.trackRun = min (q.trackRun + 1) 3) ∧
      (¬ Continues q.trackLast v → t.trackRun = 1)
  | .bad => t.trackRun = 0 ∧ t.trackLast = none ∧ t.trackFresh = q.trackFresh

/-- A moment lies in the window from (P − P/64) to (P + P/64) after another, both ends included (R4, R8). -/
def InWindow (p start m : Nat) : Prop := 63 * p ≤ 64 * (m - start) ∧ 64 * (m - start) ≤ 65 * p

/-- The pulse at `m` brings the run to 4 in window while the count is adopted and fresh, so that the unit locks or
relocks at the count track's last value `v` with the run period `p` as its period (R6, R13). -/
structure Timing.LocksAt (q : Timing) (m : Moment) (p : Nat) (v : Frame) : Prop where
  run : 3 ≤ q.pulseRun
  period : q.runPeriod = some p
  window : InWindow p q.lastPulse m
  adopted : q.trackRun = 3
  fresh : q.trackFresh = true
  last : q.trackLast = some v

/-- The old and the new value of the time jump of a boundary that sets HF to `new` after a frame `hf`; none when it
counts on (R7, R11, R13). -/
def jumpBetween (hf new : Frame) : Option (Frame × Frame) := if new = hf + 1 then none else some (hf + 1, new)

/-- The TIME_JUMP event stands directly after the events held before it, when the queue had room (R7). -/
def State.JumpPosted (s t : State) (old new : Frame) : Prop :=
  s.reporting.events.length < 32 →
    (s.reporting.events ++
      [{ seq := s.reporting.nextSeq, hf := new, kind := .timeJump, junction := none, code := old,
         value := new }]) <+: t.reporting.events

/-- The event of a kind that `s` would post next is the newest event of `t`, and nothing else was posted, when the
queue had room (R185). -/
def State.Posted (s t : State) (kind : EventKind) (j : Option JunctionNumber) (code value : BitVec 24) : Prop :=
  s.reporting.events.length < 32 →
    t.reporting.events = s.reporting.events ++
      [{ seq := s.reporting.nextSeq, hf := s.hf, kind := kind, junction := j, code := code, value := value }]

/-- Every FILLING slot has become DAMAGED, every other slot that was not FREE stands as it was (R164, R166). -/
def Ring.FillingDamaged (r r' : Ring) : Prop :=
  ∀ (i : Nat) (u : RingSlot), r.slots[i]? = some (some u) →
    r'.slots[i]? = some (some (if u.state = .filling then { u with state := .damaged } else u))

/-- Every FILLING slot has become READY, every other slot that was not FREE stands as it was (R164). -/
def Ring.FillingReady (r r' : Ring) : Prop :=
  ∀ (i : Nat) (u : RingSlot), r.slots[i]? = some (some u) →
    r'.slots[i]? = some (some (if u.state = .filling then { u with state := .ready } else u))

/-- A slot that has been freed is FREE, or has been taken again for the next frame to be fetched (R162, R172). -/
def Ring.Freed (r : Ring) (i : Nat) : Prop :=
  ∀ u, r.slots[i]? = some (some u) → u.state = .filling ∧ u.blocks = 0

/-- `s` with request `q` sent again, for `count` blocks from block `first` on (R164, R165, R166, R170). -/
def State.asking (s : State) (q : Request) (first count : Nat) : State :=
  { s with engine := { s.engine with
      state := .requesting, request := some { q with first := first, count := count },
      discarding := false, broken := false, expect := first } }

/-- The outcome in which the engine of `s` asks again for what request `q` still lacks: the flagged block alone, or
the blocks from the next undelivered one on (R164, R165, R166, R170). A frame that lacks none becomes READY
(log 15). -/
def State.AsksAgain (s : State) (q : Request) (out : Host.Outcome State Fault Refusal) : Prop :=
  (∀ b, s.engine.refetch = some b → out = .next (s.asking q b 1)) ∧
  (s.engine.refetch = none → s.blocksReceived < 135 →
    out = .next (s.asking q s.blocksReceived (135 - s.blocksReceived))) ∧
  (s.engine.refetch = none → 135 ≤ s.blocksReceived →
    ∃ t, out = .next t ∧ s.SameAround t ∧ t.reporting = s.reporting ∧ s.ring.FillingReady t.ring)

/-- No junction is on air in `t`: the items of the sequencer that R132 sets back are as after reset, the lines are at the
rest levels of `s` with no return to make, the ring presents nothing, and the output passes through (R132, R149,
R176). -/
structure State.OffAir (s t : State) : Prop where
  sequencer : t.sequencer = { Sequencer.reset with
    first := t.sequencer.first, hold := t.sequencer.hold, fresh := t.sequencer.fresh, lines := t.sequencer.lines }
  lines : ∀ i, t.sequencer.lines.get i = s.restLevel i
  ring : t.ring = { Ring.reset with slots := t.ring.slots, order := t.ring.order }
  output : t.compositor = .passThrough

/-- `s` with its request over: the engine is IDLE and looks for a frame to begin (R162). -/
def State.requestOver (s : State) : State :=
  { s with engine := { s.engine with state := .idle, request := none, broken := false } }.beginFrame

/-- `s` with every FILLING slot freed (R171, R172). -/
def State.fillingFreed (s : State) : State := { s with ring := s.ring.free (fun u => u.state == .filling) }

/-- The command that brings an order frame of a kind. -/
def OrderKind.command : OrderKind → List Byte → Half → Instr
  | .configure => .configure
  | .plan => .plan
  | .amend => .amend
  | .cancel => .cancel
  | .withdrawAll => .withdrawAll
  | .layout => .layout
  | .resumeFetch => .resumeFetch
  | .queryStatus => .queryStatus
  | .queryJunction => .queryJunction
  | .queryMirror => .queryMirror
  | .readEvents => .readEvents
  | .clearAlarm => .clearAlarm

/-- A payload's length fits a kind (R178, Section 11.3). -/
def OrderKind.Fits : OrderKind → List Byte → Prop
  | .configure, p => p.length = 24
  | .plan, p => 26 ≤ p.length ∧ p.length = fieldSetLength p
  | .amend, p => 26 ≤ p.length ∧ p.length = fieldSetLength p
  | .cancel, p => p.length = 2
  | .withdrawAll, p => p.length = 0
  | .layout, p => p.length = 18
  | .resumeFetch, p => p.length = 0
  | .queryStatus, p => p.length = 0
  | .queryJunction, p => p.length = 2
  | .queryMirror, p => p.length = 1
  | .readEvents, p => p.length = 1
  | .clearAlarm, p => p.length = 2

/-- An order frame of a kind reaches the order's own rules: it is read in an exchange, its CRC-16 is correct and its
length fits (R177, R178). -/
structure State.Takes (s : State) (k : OrderKind) (payload : List Byte) (crc : Half) : Prop where
  reading : s.exchange = .reading
  check : crc = orderCrc k.code payload
  fits : k.Fits payload

/-- `s` with a reply on the order port. -/
def State.replied (s : State) (st : Status) (payload : List Byte) : State :=
  { s with exchange := .replying { status := st, payload := payload } }

end Sys2Proof.Machine
end

