-- ==== Sys2Proof/Certificates/Slice0/Obligations.lean ====
section
/-! DEFINITION. The statements about the J210, grouped as the manual's chapters are. Each docstring names the rules
of spec/ that the statement formalises, or the log entry that it rests on. -/

open Sys2Proof Sys2Proof.Machine

/-! ### The queue of commands, reset, and the frame of every command -/

/-- A step takes the command at the front of the queue and is that command's effect on the state with the queue's
rest; with no command waiting the part idles (the queue is the model's, log 1). -/
def Obligations.StepTakesFrontCommand : Prop :=
  (∀ (c : Instr) (rest : List Instr) (s : State), s.pending = c :: rest →
    step s = exec c { s with pending := rest }) ∧
  ∀ s : State, s.pending = [] → step s = .next s

/-- No command faults or is refused (Section 95; a command that the manual says does not occur in a state has no
effect, log 3). That none touches the queue of commands, RESET among them, is the model's choice: the queue is log 1,
and that RESET leaves it is log 6. -/
def Obligations.EveryCommandCompletes : Prop :=
  ∀ (c : Instr) (s : State), ∃ t, exec c s = .next t ∧ t.pending = s.pending

/-- RESET brings the order port and the reporting items to the values of R194, and every other block to its own
reset state. An event posted first after it takes sequence number 0. -/
def Obligations.ResetRestoresEveryBlock : Prop :=
  ∀ s : State, ∃ t, exec .reset s = .next t ∧
    t.exchange = .idle ∧ t.exchange.odo = [] ∧ t.config = none ∧
    t.reporting.events = [] ∧ t.reporting.nextSeq = 0 ∧ t.attn = false ∧
    (∀ n, (t.reporting.alarms.get n).flag = false ∧ (t.reporting.alarms.get n).count = 0 ∧
      (t.reporting.alarms.get n).detail = none) ∧
    (∀ k j c v, (t.post k j c v).reporting.events.map (·.seq) = [0]) ∧
    t = { State.reset with markerPins := t.markerPins, pending := t.pending }

/-- The part after reset meets every invariant stated below. -/
def Obligations.ResetIsSound : Prop := State.reset.Sound

/-! ### Chapter 1: house timing -/

/-- The ranges of the Reference Timing Unit's items, and what the reference state says of them, hold after every
step from any state in which they hold (table of Section 1.2; R4 to R13). That no run period is held in LOCKED is
the model's (log 23). -/
def Obligations.TimingSoundKept : Prop :=
  ∀ s t : State, s.timing.Sound → step s = .next t → t.timing.Sound

/-- A count word in LOCKED is compared with HF + 1 (R10): it agrees, feeds the jump candidate, or is bad. -/
def Obligations.CountWordInLocked : Prop :=
  ∀ (s : State) (w : CountWord), s.timing.refState = .locked →
    ∃ q : Timing, exec (.countWord w) s = .next { s with timing := q } ∧
      s.timing.TrackTook q w ∧
      q = { s.timing with
        trackRun := q.trackRun, trackLast := q.trackLast, trackFresh := q.trackFresh,
        jumpRun := q.jumpRun, jumpLast := q.jumpLast, pendingAdoption := q.pendingAdoption } ∧
      (w = .bad → q.jumpRun = 0 ∧ q.jumpLast = none ∧ q.pendingAdoption = none) ∧
      ∀ v, w = .good v →
        (v = s.timing.hf + 1 → q.jumpRun = 0 ∧ q.jumpLast = none ∧ q.pendingAdoption = none) ∧
        (v ≠ s.timing.hf + 1 → q.jumpLast = some v) ∧
        (v ≠ s.timing.hf + 1 → Continues s.timing.jumpLast v →
          (s.timing.jumpRun + 1 = 3 → q.jumpRun = 0 ∧ q.pendingAdoption = some v) ∧
          (s.timing.jumpRun + 1 ≠ 3 → q.jumpRun = s.timing.jumpRun + 1) ∧
          (s.timing.pendingAdoption.isSome → q.pendingAdoption = some v) ∧
          (s.timing.jumpRun + 1 ≠ 3 → s.timing.pendingAdoption = none → q.pendingAdoption = none)) ∧
        (v ≠ s.timing.hf + 1 → ¬ Continues s.timing.jumpLast v →
          q.jumpRun = 1 ∧ q.pendingAdoption = none)

/-- Outside LOCKED a count word feeds the count track alone (R5, R12). The close of a run's window breaks the run; no
window is open before the second pulse of a run (R4, log 3). In HOLDOVER the free-run timer's expiry issues a FREE_RUN
boundary with HF + 1, based on that expiry, and the timer runs for another period; the fresh flag stays (R12, R5).
That the expiry is the boundary's basis is the model's (log 34). -/
def Obligations.EventsOutsideLocked : Prop :=
  (∀ (s : State) (w : CountWord), s.timing.refState ≠ .locked →
    ∃ q : Timing, exec (.countWord w) s = .next { s with timing := q } ∧
      s.timing.TrackTook q w ∧
      q = { s.timing with trackRun := q.trackRun, trackLast := q.trackLast, trackFresh := q.trackFresh }) ∧
  (∀ (s : State) (o : BoundaryOrder), s.timing.refState ≠ .locked →
    (2 ≤ s.timing.pulseRun → exec (.referenceWindowClose o) s =
      .next { s with timing := { s.timing with pulseRun := 0, runPeriod := none } }) ∧
    (s.timing.pulseRun < 2 → exec (.referenceWindowClose o) s = .next s)) ∧
  ∀ (s : State) (o : BoundaryOrder) (due : Moment) (p : Nat),
    s.timing.refState = .holdover → s.timing.freeRun = some due → s.timing.period = some p →
    ∃ t, exec (.freeRunExpiry o) s = .next t ∧ s.SameAround t ∧
      t.timing = { s.timing with hf := s.timing.hf + 1, basis := due, freeRun := some (due + p) }

/-- A pulse in SEEKING or HOLDOVER that does not complete a lock is judged in the pulse run, clears the fresh flag and
issues no boundary (R4, R5). -/
def Obligations.PulseJudgedInRun : Prop :=
  ∀ (s : State) (m : Moment) (o : BoundaryOrder), s.timing.refState ≠ .locked →
    let q := s.timing
    let opened := { q with pulseRun := 1, runPeriod := none, lastPulse := m, trackFresh := false }
    (q.pulseRun = 0 → exec (.referencePulse m o) s = .next { s with timing := opened }) ∧
    (q.pulseRun = 1 → q.runPeriod = none →
      (16000000 ≤ m - q.lastPulse ∧ m - q.lastPulse ≤ 42000000 →
        exec (.referencePulse m o) s = .next { s with timing :=
          { q with
            pulseRun := 2, runPeriod := some (m - q.lastPulse), lastPulse := m, trackFresh := false } }) ∧
      (¬ (16000000 ≤ m - q.lastPulse ∧ m - q.lastPulse ≤ 42000000) →
        exec (.referencePulse m o) s = .next { s with timing := opened })) ∧
    ∀ p, 2 ≤ q.pulseRun → q.runPeriod = some p →
      (¬ InWindow p q.lastPulse m → exec (.referencePulse m o) s = .next { s with timing := opened }) ∧
      (InWindow p q.lastPulse m → q.pulseRun = 2 ∨ q.trackRun ≠ 3 ∨ q.trackFresh = false →
        exec (.referencePulse m o) s = .next { s with timing :=
          { q with pulseRun := min (q.pulseRun + 1) 4, lastPulse := m, trackFresh := false } })

/-- The good pulse that brings the run to 4 with a fresh adopted count locks in SEEKING and relocks in HOLDOVER: the
unit takes the count track's last value as HF and the run period as P (R6, R13); a relock that does not count on
carries a time jump. That the pulse run is then 0 with no run period is the model's (log 23). -/
def Obligations.PulseLocksAndRelocks : Prop :=
  ∀ (s : State) (m : Moment) (o : BoundaryOrder) (p : Nat) (v : Frame),
    s.timing.refState ≠ .locked → 3 ≤ s.timing.pulseRun → s.timing.runPeriod = some p →
    InWindow p s.timing.lastPulse m →
    s.timing.trackRun = 3 → s.timing.trackFresh = true → s.timing.trackLast = some v →
    ∃ t, exec (.referencePulse m o) s = .next t ∧ s.SameAround t ∧
      t.timing = { s.timing with
        refState := .locked, hf := v, hfValid := true, period := some p, pulseRun := 0, runPeriod := none,
        lastPulse := m, missing := 0, trackFresh := false, jumpRun := 0, jumpLast := none,
        pendingAdoption := none, freeRun := none, basis := m } ∧
      (s.timing.refState = .holdover → v ≠ s.timing.hf + 1 → s.JumpPosted t (s.timing.hf + 1) v)

/-- In LOCKED a pulse in the window issues a PULSE boundary based on it, which applies a pending adoption; a pulse
outside the window is discarded (R8, R11). -/
def Obligations.PulseInLocked : Prop :=
  ∀ (s : State) (m : Moment) (o : BoundaryOrder) (p : Nat),
    s.timing.refState = .locked → s.timing.period = some p →
    (¬ InWindow p s.timing.basis m → exec (.referencePulse m o) s = .next s) ∧
    (InWindow p s.timing.basis m →
      ∃ t, exec (.referencePulse m o) s = .next t ∧ s.SameAround t ∧
        t.timing = { s.timing with
          hf := s.timing.pendingAdoption.getD (s.timing.hf + 1), pendingAdoption := none, missing := 0,
          trackFresh := false, basis := m } ∧
        ∀ v, s.timing.pendingAdoption = some v → v ≠ s.timing.hf + 1 → s.JumpPosted t (s.timing.hf + 1) v)

/-- A window of LOCKED that closes with no pulse issues a SUBSTITUTE boundary, or loses the reference when the one
before it closed so too (R8, R9, R11). That no run period is held after the loss is the model's (log 23). -/
def Obligations.WindowCloseInLocked : Prop :=
  ∀ (s : State) (o : BoundaryOrder) (p : Nat),
    s.timing.refState = .locked → s.timing.period = some p →
    let hf' := s.timing.pendingAdoption.getD (s.timing.hf + 1)
    ∃ t, exec (.referenceWindowClose o) s = .next t ∧ s.SameAround t ∧
      (s.timing.missing = 0 → t.timing = { s.timing with
        hf := hf', pendingAdoption := none, missing := 1, trackFresh := false,
        basis := s.timing.basis + p }) ∧
      (s.timing.missing ≠ 0 → t.timing = { s.timing with
        refState := .holdover, hf := hf', pendingAdoption := none, missing := 0, jumpRun := 0,
        jumpLast := none, pulseRun := 0, runPeriod := none, basis := s.timing.basis + p,
        freeRun := some (s.timing.basis + p + p) }) ∧
      (s.timing.missing ≠ 0 → (t.reporting.alarms.get .referenceLost).flag = true) ∧
      ∀ v, s.timing.pendingAdoption = some v → v ≠ s.timing.hf + 1 → s.JumpPosted t (s.timing.hf + 1) v

/-- A pulse in LOCKED, a window close in LOCKED, a lock or relock pulse and a free-run expiry each issue one boundary
with its ended frame, origin, time jump, relock and loss; the unit's own items are then those of the statements above
(R6, R8, R9, R11, R12, R13). A boundary posts TIME_JUMP when it carries a jump and then takes each block's operation
once, those that the command names first and in its order (R7; the named order is log 4). The operations are those of
the Cue Bus Interface, the Marker Unit, the sequencer, the ring and the Layout Store, the REFERENCE_LOST alarm of a
loss (its detail is log 11), the endings of a time jump (R53) and the declines of a boundary of HOLDOVER or a relock
(R99). -/
def Obligations.BoundaryReachesEveryBlockOnce : Prop :=
  (∀ (s : State) (b : Boundary) (o : BoundaryOrder),
    (schedule o).Perm allBoundaryOps ∧ (o.ops.Nodup → o.ops <+: schedule o) ∧
    s.issueBoundary b o = (s.postJump b.jump).boundaryOps b o.storeFirst (schedule o) ∧
    s.SameAround (s.issueBoundary b o) ∧ (s.issueBoundary b o).timing = s.timing ∧
    ∀ old new, b.jump = some (old, new) → s.JumpPosted (s.issueBoundary b o) old new) ∧
  (∀ (s : State) (b : Boundary) (first : Bool) (op : BoundaryOp) (rest : List BoundaryOp),
    s.boundaryOps b first [] = s ∧
    s.boundaryOps b first (op :: rest) =
      (s.boundaryOp b
        { beforeSequencer := rest.contains .sequencer, beforeRing := rest.contains .ring, storeFirst := first }
        op).boundaryOps b first rest) ∧
  (∀ (s : State) (b : Boundary) (x : StartContext),
    s.boundaryOp b x .cueBus = s.busBoundary ∧
    s.boundaryOp b x .markers = s.markersBoundary x b.ended b.jump ∧
    s.boundaryOp b x .sequencer = s.sequencerBoundary x ∧
    s.boundaryOp b x .ring = s.ringAdvance ∧
    s.boundaryOp b x .layoutLoad = s.loadAtFrame ∧
    (b.loss = true → s.boundaryOp b x .referenceLost = s.raiseAlarm .referenceLost 0 none) ∧
    (b.loss = false → s.boundaryOp b x .referenceLost = s) ∧
    (b.jump = none → s.boundaryOp b x .jumpEndings = s) ∧
    (s.config = none ∨ s.timing.refState ≠ .holdover ∧ b.relock = false → s.boundaryOp b x .decline = s)) ∧
  (∀ (s : State) (b : Boundary) (x : StartContext), (s.table.map (·.number)).Nodup →
    let due := fun (r : Junction) => !ahead (r.fields.commitFrame s.lead) s.hf
    let leaves := fun (t : State) (gone : Junction → Bool) (code : Junction → BitVec 24) =>
      t.table = s.table.filter (fun r => !gone r) ∧
      (s.reporting.events.length + (s.table.filter gone).length ≤ 32 →
        t.reporting.events.map (fun e => (e.kind, e.junction, e.code)) =
          s.reporting.events.map (fun e => (e.kind, e.junction, e.code)) ++
            (s.table.filter gone).map (fun r => (.junctionEnd, some r.number, code r)))
    (b.jump.isSome → leaves (s.boundaryOp b x .jumpEndings) (fun r => !r.state.isOnAir && due r)
      (fun r => detailBytes (if r.state = .primed then 4 else 3) 7 0)) ∧
    (s.config.isSome → s.timing.refState = .holdover ∨ b.relock = true →
      leaves (s.boundaryOp b x .decline) (fun r => r.state.isUncommitted && due r)
        (fun _ => detailBytes 3 6 0))) ∧
  ∀ (s : State) (o : BoundaryOrder),
    let hf := s.timing.hf
    let issues := fun (out : Host.Outcome State Fault Refusal) (b : Boundary) =>
      ∃ q : Timing, out = .next (({ s with timing := q }).issueBoundary b o)
    (∀ p, s.timing.refState = .locked → s.timing.period = some p →
      let jump := jumpBetween hf (s.timing.pendingAdoption.getD (hf + 1))
      (∀ m, InWindow p s.timing.basis m → issues (exec (.referencePulse m o) s)
        { ended := hf, origin := .pulse, jump := jump, relock := false, loss := false }) ∧
      (s.timing.missing = 0 → issues (exec (.referenceWindowClose o) s)
        { ended := hf, origin := .substitute, jump := jump, relock := false, loss := false }) ∧
      (s.timing.missing ≠ 0 → issues (exec (.referenceWindowClose o) s)
        { ended := hf, origin := .freeRun, jump := jump, relock := false, loss := true })) ∧
    (∀ m p v, s.timing.LocksAt m p v →
      (s.timing.refState = .seeking → issues (exec (.referencePulse m o) s)
        { ended := hf, origin := .pulse, jump := none, relock := false, loss := false }) ∧
      (s.timing.refState = .holdover → issues (exec (.referencePulse m o) s)
        { ended := hf, origin := .pulse, jump := jumpBetween hf v, relock := true, loss := false })) ∧
    ∀ due p, s.timing.refState = .holdover → s.timing.freeRun = some due → s.timing.period = some p →
      issues (exec (.freeRunExpiry o) s)
        { ended := hf, origin := .freeRun, jump := none, relock := false, loss := false }

/-! ### Chapter 2: the cue bus -/

/-- The own slot of a station that is LISTENING or SILENT(CLASH) is received and discarded: it changes no presence
entry, no count and no mirror entry (R18). -/
def Obligations.OwnSlotDiscarded : Prop :=
  ∀ (s : State) (c : Configuration) (cy : Cycle) (heard : SlotHeard),
    s.config = some c → s.bus.cycle = some cy → cy.nextSlot < c.slots → cy.nextSlot = c.station →
    s.bus.station = .listening ∨ s.bus.station = .silentClash →
    exec (.slotEnd heard) s =
      .next { s with bus := { s.bus with cycle := some { cy with nextSlot := cy.nextSlot + 1 } } }

/-- A peer's GOOD slot: its presence entry and its mirror entry take the beacon, STATION_PRESENT is posted when the
entry was not PRESENT, and GROUP_MISMATCH is raised when the condition begins (R22, R28, R29, R58). That the
STATION_PRESENT event stands before that alarm's event is the model's choice (log 16). -/
def Obligations.PeerSlotGood : Prop :=
  ∀ (s : State) (c : Configuration) (cy : Cycle) (bytes : List Byte) (h : HeardBeacon),
    s.config = some c → s.bus.cycle = some cy → cy.nextSlot < c.slots → c.slots ≤ 16 →
    cy.nextSlot ≠ c.station → goodBeacon cy.nextSlot bytes = some h →
    let i := cy.nextSlot
    let e := s.bus.entry i
    let posted := if e.state = .present then s else s.post .stationPresent none 0 (detailNat i)
    ∃ t, exec (.slotEnd (.carrier bytes)) s = .next t ∧
      t = { s with bus := t.bus, mirror := t.mirror, reporting := t.reporting } ∧
      t.bus = { s.bus with
        cycle := some { cy with nextSlot := i + 1 }, presence := t.bus.presence,
        groupMismatch := t.bus.groupMismatch } ∧
      t.bus.entry i = { e with
        state := .present, missed := 0,
        heard := some { hf := cy.hf, digest := h.digest, senderHf := h.senderHf, bitmap := h.bitmap },
        mismatch := s.bus.digest != some h.digest || h.senderHf != cy.hf } ∧
      (∀ j, j ≠ i → t.bus.entry j = s.bus.entry j ∧ t.mirror.entry j = s.mirror.entry j) ∧
      (t.mirror.entry i).claims = h.claims.map (fun k => { claim := k, seat := none, rank := none }) ∧
      (t.mirror.entry i).writtenHf = some cy.hf ∧ t.mirror.lastResolution = s.mirror.lastResolution ∧
      t.bus.groupMismatch = t.bus.mismatched c.station ∧
      (¬ (t.bus.groupMismatch = true ∧ s.bus.groupMismatch = false) → t.reporting = posted.reporting) ∧
      (t.bus.groupMismatch = true → s.bus.groupMismatch = false →
        t.reporting = (posted.raiseAlarm .groupMismatch (detailNat i) none).reporting)

/-- A peer's CORRUPT or SILENT slot is counted; a PRESENT entry whose missed count reaches 8 becomes ABSENT, its
mirror entry is emptied and STATION_ABSENT is posted (R23, R60). That the group mismatch condition stands as R29 has
it is an invariant (`State.BusSound`). -/
def Obligations.PeerSlotMissed : Prop :=
  ∀ (s : State) (c : Configuration) (cy : Cycle) (heard : SlotHeard),
    s.config = some c → s.bus.cycle = some cy → cy.nextSlot < c.slots → c.slots ≤ 16 →
    cy.nextSlot ≠ c.station → heardBeacon heard cy.nextSlot = none →
    s.bus.groupMismatch = s.bus.mismatched c.station →
    let i := cy.nextSlot
    let e := s.bus.entry i
    let counted := { e with
      missed := min (e.missed + 1) 8
      corrupt := if heardCarrier heard then min (e.corrupt + 1) 65535 else e.corrupt
      silent := if heardCarrier heard then e.silent else min (e.silent + 1) 65535 }
    ∃ t, exec (.slotEnd heard) s = .next t ∧
      t = { s with bus := t.bus, mirror := t.mirror, reporting := t.reporting } ∧
      t.bus = { s.bus with
        cycle := some { cy with nextSlot := i + 1 }, presence := t.bus.presence,
        groupMismatch := t.bus.groupMismatch } ∧
      (∀ j, j ≠ i → t.bus.entry j = s.bus.entry j ∧ t.mirror.entry j = s.mirror.entry j) ∧
      t.bus.groupMismatch = t.bus.mismatched c.station ∧
      (¬ (e.state = .present ∧ 7 ≤ e.missed) →
        t.bus.entry i = counted ∧ t.mirror = s.mirror ∧ t.reporting = s.reporting) ∧
      (e.state = .present → 7 ≤ e.missed →
        t.bus.entry i = { counted with state := .absent, mismatch := false } ∧
        t.mirror.entry i = { claims := [], writtenHf := none } ∧
        t.reporting = (s.post .stationAbsent none 0 (detailNat i)).reporting)

/-- CUE_TXEN is asserted when the own slot of a MEMBER station that has a beacon to send begins, and at no other
OWN_SLOT_START (R16); one that is not due changes nothing (log 3). That slot is read back: a match clears the mismatch
count, a mismatch counts, and the third in a row makes the station SILENT(CLASH) (R19, R20, R24, R62). CUE_TXEN is
down after the slot (log 18). -/
def Obligations.OwnSlotDrivenAndReadBack : Prop :=
  (∀ s : State,
    let due := ∃ c cy sent, s.config = some c ∧ s.bus.cycle = some cy ∧ cy.nextSlot = c.station ∧
      s.bus.station = .member ∧ s.bus.sending = some sent
    (due → exec .ownSlotStart s = .next { s with bus := { s.bus with txen := true } }) ∧
    (¬ due → exec .ownSlotStart s = .next s)) ∧
  ∀ (s : State) (c : Configuration) (cy : Cycle) (sent : List Byte) (heard : SlotHeard),
    s.config = some c → s.bus.cycle = some cy → cy.nextSlot < c.slots → c.slots ≤ 16 →
    cy.nextSlot = c.station → s.bus.station = .member → s.bus.sending = some sent →
    let good := heard = .carrier sent ∧ (goodBeacon c.station sent).isSome = true
    let bus := { s.bus with
      cycle := some { cy with nextSlot := cy.nextSlot + 1 }, txen := false, sending := none }
    (good → exec (.slotEnd heard) s = .next { s with bus := { bus with mismatches := 0 } }) ∧
    (¬ good → s.bus.mismatches < 2 → exec (.slotEnd heard) s =
      .next { s with bus := { bus with mismatches := s.bus.mismatches + 1 } }) ∧
    (¬ good → 2 ≤ s.bus.mismatches → ∃ t, exec (.slotEnd heard) s = .next t ∧ s.SameAround t ∧
      t.timing = s.timing ∧
      t.bus = { bus with
        station := .silentClash, mismatches := s.bus.mismatches + 1, held := none,
        presence := t.bus.presence } ∧
      (t.bus.entry c.station).state = .empty ∧
      (∀ j, j ≠ c.station → t.bus.entry j = s.bus.entry j ∧ t.mirror.entry j = s.mirror.entry j) ∧
      t.mirror.entry c.station = { claims := [], writtenHf := none } ∧
      t.publisher.lastChoice = [] ∧ t.publisher.memberCloses = 0 ∧
      (t.reporting.alarms.get .slotClash).flag = true ∧
      (t.reporting.alarms.get .slotClash).detail = some (detailNat c.station))

/-- The cycle close: the cycle is over and the mirror is resolved at its frame (R63). A close in LISTENING counts, and
the eighth makes the station MEMBER and forms its first beacon (R31). The close is issued to the publisher with its
HF, the station state after R31, the entry close mark and the group mismatch condition (R35). At a close in MEMBER the
chosen claims, four at most, become the beacon held for the next cycle, the own mirror entry and the last choice; the
bitmap says which entries are PRESENT (R15, R26, R61, R79, R94). The publisher takes the six stages of R77, each record
in table order; the four positions go to the candidates in the order of R91; a candidate without one lapses or reverts
(R93), a PLANNED record with one becomes OPEN, and a claim with its publish mark set is published anew with the next tag
that no other claim of the choice holds (R92). -/
def Obligations.CycleCloseCountsAndHandsOn : Prop :=
  (∀ (s : State) (c : Configuration) (cy : Cycle),
    s.config = some c → s.bus.cycle = some cy → cy.nextSlot = c.slots → c.station < 16 →
    let m := s.mirror.resolved c.concurrency cy.hf
    let enters := s.bus.station = .listening ∧ 7 ≤ s.bus.listening
    (∃ u : State, u = { s with bus := u.bus, mirror := m } ∧
      (enters → u.bus.station = .member) ∧ (¬ enters → u.bus.station = s.bus.station) ∧
      exec .cycleClose s = .next (u.publisherClose
        { hf := cy.hf, station := u.bus.station, entry := decide enters, mismatch := s.bus.groupMismatch,
          results := m.ownResults c.station, own := c.station, settle := c.settle, horizon := c.horizon })) ∧
    ∃ t, exec .cycleClose s = .next t ∧ s.SameAround t ∧ t.timing = s.timing ∧
      t.bus.cycle = none ∧ t.mirror.lastResolution = some cy.hf ∧
      (∀ i, i ≠ c.station → t.mirror.entry i = m.entry i) ∧
      (t.bus.station ≠ .member → t.mirror = m) ∧
      (s.bus.station = .listening → s.bus.listening < 7 →
        t.bus = { s.bus with cycle := none, listening := s.bus.listening + 1 }) ∧
      (enters →
        t.bus.station = .member ∧ t.bus.listening = s.bus.listening + 1 ∧ t.bus.mismatches = 0 ∧
        (t.bus.entry c.station).state = .present ∧ t.bus.held.isSome = true) ∧
      (s.bus.station = .member → t.bus = { s.bus with cycle := none, held := t.bus.held } ∧
        t.bus.held.isSome = true) ∧
      (s.bus.station = .silentClash → t.bus = { s.bus with cycle := none })) ∧
  (∀ (s : State) (c : Configuration) (cy : Cycle),
    s.config = some c → s.bus.cycle = some cy → cy.nextSlot = c.slots → c.station < 16 →
    s.bus.station = .member →
    ∃ t b, exec .cycleClose s = .next t ∧ t.bus.held = some b ∧ b.station = c.station ∧
      b.digest = s.bus.digest.getD 0 ∧
      (∀ i, i < 16 → (b.bitmap.getLsbD i = true ↔ (s.bus.entry i).state = .present)) ∧
      b.claims = t.publisher.lastChoice ∧ b.claims.length ≤ 4 ∧
      t.mirror.entry c.station = MirrorEntry.written b.claims cy.hf ∧
      t.publisher.memberCloses = min (s.publisher.memberCloses + 1) 2) ∧
  (∀ (s : State) (x : CloseContext), x.station = .member →
    let numbers := fun (t : State) (p : Junction → Bool) => (t.table.filter p).map (·.number)
    let s1 := s.stageForfeit x
    let s2 := (numbers s1 (fun r => r.pending.isSome)).foldl (fun t n => t.secondaryStep x n) s1
    let s3 := (numbers s2 (fun _ => true)).foldl (fun t n => t.recordStep x n) s2
    let s4 := (numbers s3 (fun r => r.state.isUncommitted && !ahead (r.fields.commitFrame s.lead) x.hf)).foldl
      (fun t n => t.commitTest x n) s3
    let candidates :=
      (numbers s4 (fun r => r.state.isOnAir)).map (fun n => Candidate.claim n .record) ++
      (numbers s4 (fun r => r.state == .primed)).map (fun n => Candidate.claim n .record) ++
      (numbers s4 (fun r => r.state == .locked)).map (fun n => Candidate.claim n .record) ++
      (numbers s4 (fun r => r.pending.isSome)).map (fun n => Candidate.claim n .secondary) ++
      s4.table.filterMap (fun r =>
        if r.state = .opened then some (Candidate.claim r.number .record)
        else if r.state = .planned ∧ ahead r.fields.claimStart (x.hf + BitVec.ofNat 24 x.horizon) = false then
          some (Candidate.planned r.number)
        else none)
    let chosen := candidates.take 4
    let s5 := chosen.foldl State.admitClaim ((candidates.drop 4).foldl State.passOver s4)
    let kept := chosen.filterMap (fun d =>
      (s5.claim? d.key.1 d.key.2).bind (fun k => if k.mark = true then none else k.tag))
    let s6 := s5.publishAll x.hf kept chosen
    s.publisherClose x = s6.handOn x (s6.handedOn chosen)) ∧
  (∀ (s : State) (n : JunctionNumber),
    s.passOver (.claim n .secondary) = s.lapse n .noPosition ∧ s.passOver (.planned n) = s ∧
    (∀ role, s.admitClaim (.claim n role) = s) ∧
    ∀ r, s.junction? n = some r →
      (r.state ≠ .opened → s.passOver (.claim n .record) = s) ∧
      (r.state = .opened → ∃ t, s.passOver (.claim n .record) = t ∧
        t = { s with table := t.table, publisher := t.publisher } ∧
        t.junction? n = some { r with state := .planned } ∧
        t.publisher = { s.publisher with
          claims := s.publisher.claims.filter (fun k => !(k.junction == n && k.role == .record)) }) ∧
      ∃ t, s.admitClaim (.planned n) = t ∧ t = { s with table := t.table, publisher := t.publisher } ∧
        t.junction? n = some { r with state := .opened } ∧
        t.publisher = { s.publisher with claims := s.publisher.claims ++
          [{ junction := r.number, role := .record, tag := none, cls := .opened, posted := none,
             start := r.fields.claimStart, stop := r.fields.claimEnd, campaign := r.campaign, settle := some 0,
             mark := true, conflict := false }] }) ∧
  ∀ (s : State) (hf : Frame) (taken : List Byte) (d : Candidate) (rest : List Candidate) (k : OwnClaim),
    s.claim? d.key.1 d.key.2 = some k →
    let last := s.publisher.lastTag
    let tag := nextTag taken 4 last
    s.publishAll hf taken [] = s ∧
    (k.mark = false → s.publishAll hf taken (d :: rest) = s.publishAll hf taken rest) ∧
    (k.mark = true → ∃ t : State, s.publishAll hf taken (d :: rest) = t.publishAll hf (tag :: taken) rest ∧
      t = { s with publisher := t.publisher } ∧ t.publisher.lastTag = tag ∧
      t.claim? d.key.1 d.key.2 = some { k with
        tag := some tag, cls := .opened, posted := some hf, settle := some 0, mark := false } ∧
      ∀ n role, (n, role) ≠ d.key → t.claim? n role = s.claim? n role) ∧
    (taken.length ≤ 4 → ∃ i < 5, tag = last + 1 + BitVec.ofNat 8 i ∧ tag ∉ taken ∧
      ∀ j < i, last + 1 + BitVec.ofNat 8 j ∈ taken)

/-- A boundary that carries LOCKED (a pulse or a SUBSTITUTE boundary in LOCKED, the lock pulse in SEEKING, the relock
pulse in HOLDOVER) opens a cycle of its HF timed from its basis in every station that is LISTENING, MEMBER or
SILENT(CLASH), and in a SILENT(REFERENCE) one, which it makes LISTENING; a MEMBER station completes its beacon with the
HF of the boundary (R14, R16, R32). A boundary that carries HOLDOVER (the loss of the reference, a free-run expiry)
silences LISTENING and MEMBER and opens none (R14, R32). That a cycle still open gives way, with CUE_TXEN down, is the
model's (log 24). -/
def Obligations.BoundaryMovesStation : Prop :=
  ∀ (s : State) (c : Configuration) (o : BoundaryOrder), s.config = some c → c.station < 16 →
    let opens := fun (out : Host.Outcome State Fault Refusal) (hf : Frame) (basis : Moment) (p : Nat) =>
      let cy : Cycle := { hf := hf, basis := basis, period := p, nextSlot := 0 }
      ∃ t, out = .next t ∧ t.timing.hf = hf ∧
        (s.bus.station = .listening ∨ s.bus.station = .silentClash →
          t.bus = { s.bus with cycle := some cy, txen := false }) ∧
        (s.bus.station = .silentReference →
          t.bus = { s.bus with cycle := some cy, txen := false, station := .listening, listening := 0 }) ∧
        (s.bus.station = .member →
          t.bus = { s.bus with
            cycle := some cy, txen := false, held := none,
            sending := s.bus.held.map (fun b => b.encode hf) })
    let silences := fun (out : Host.Outcome State Fault Refusal) => ∃ t, out = .next t ∧
      (s.bus.station = .listening →
        t.bus = { s.bus with cycle := none, station := .silentReference, listening := 0 }) ∧
      (s.bus.station = .silentReference ∨ s.bus.station = .silentClash →
        t.bus = { s.bus with cycle := none }) ∧
      (s.bus.station = .member →
        t.bus = { s.bus with
          cycle := none, station := .silentReference, listening := 0, held := none, sending := none,
          txen := false, presence := t.bus.presence } ∧
        (t.bus.entry c.station).state = .empty)
    (∀ p, s.timing.refState = .locked → s.timing.period = some p →
      let hf := s.timing.pendingAdoption.getD (s.timing.hf + 1)
      (∀ m, InWindow p s.timing.basis m → opens (exec (.referencePulse m o) s) hf m p) ∧
      (s.timing.missing = 0 → opens (exec (.referenceWindowClose o) s) hf (s.timing.basis + p) p) ∧
      (s.timing.missing ≠ 0 → silences (exec (.referenceWindowClose o) s))) ∧
    (∀ m p v, s.timing.refState ≠ .locked → s.timing.LocksAt m p v →
      opens (exec (.referencePulse m o) s) v m p) ∧
    ∀ due p, s.timing.refState = .holdover → s.timing.freeRun = some due → s.timing.period = some p →
      silences (exec (.freeRunExpiry o) s)

/-- What Chapter 2 says of the Cue Bus Interface at all times holds after every step from any state in which it holds:
the ranges of its counts, the own presence entry, the group mismatch condition, and that the station drives the bus
only in its own slot and only while MEMBER (R16, R19, R23, R24, R29). -/
def Obligations.CueBusSoundKept : Prop :=
  ∀ s t : State, s.BusSound → step s = .next t → t.BusSound

/-- No mirror entry ever holds more than four claims, and one that holds claims belongs to a PRESENT station
(R56, R60, R62). -/
def Obligations.MirrorSoundKept : Prop :=
  ∀ s t : State, s.BusSound → s.MirrorSound → step s = .next t → t.MirrorSound

/-! ### Chapters 2, 3, 10 and 11: the forms in which values travel -/

/-- A beacon that is sent is heard as it was formed: 63 bytes, GOOD in the slot of its station, with every field
(R16, R17, Section 11.2). -/
def Obligations.BeaconRoundTrip : Prop :=
  ∀ (b : Beacon) (hf : Frame), b.station < 256 → b.claims.length ≤ 4 →
    (∀ k ∈ b.claims, ahead k.stop k.start = true) → (b.claims.map (·.tag)).Nodup →
    (b.encode hf).length = 63 ∧
    goodBeacon b.station (b.encode hf) =
      some { digest := b.digest, bitmap := b.bitmap, senderHf := hf, claims := b.claims }

/-- A field set that fits its bytes travels with a length that its own presence marks call for and is read back as it
was sent (Section 11.4); a configuration record in range is 24 bytes and is read back as it was sent (R180,
Section 11.5). -/
def Obligations.OrderPayloadsRoundTrip : Prop :=
  (∀ (n : JunctionNumber) (f : FieldSet),
    f.early < 256 → f.rin < 256 → f.rout < 256 → f.hold < 65536 → f.minHold < 65536 →
    f.cues.length < 256 → (∀ k ∈ f.cues, k.offset < 65536) → f.primary.length < 16777216 →
    (∀ a, f.alternate = some a → a.length < 16777216) →
    (∀ l, f.layout = some l → l.fill < 256 ∧ ∀ w ∈ [l.credits, l.promo],
      w.x < 65536 ∧ w.y < 65536 ∧ w.width < 65536 ∧ w.height < 65536) →
    fieldSetFits (f.encode n) = true ∧ payloadNumber (f.encode n) = n ∧
      decodeFieldSet (f.encode n) = some f) ∧
  ∀ c : Configuration, c.inRange = true →
    c.encode.length = 24 ∧ decodeConfiguration c.encode = some c

/-! ### Chapter 4: seat resolution -/

/-- Two intervals intersect exactly when some frame lies in both (R2; of an interval of length 0, log 31). -/
def Obligations.IntersectingIntervalsShareAFrame : Prop :=
  ∀ a b c d : Frame, intersects a b c d = true ↔ ∃ x, holds a b x = true ∧ holds c d x = true

/-- The campaign test (R67): campaign 0 passes; another passes when no seated claim of another owner carries it over
an interval that intersects, and intervals that only touch do not intersect. -/
def Obligations.CampaignTest : Prop :=
  (∀ (placed : List OwnedClaim) (k : OwnedClaim), k.claim.campaign = 0 → passesCampaign placed k = true) ∧
  (∀ (placed : List OwnedClaim) (k : OwnedClaim), k.claim.campaign ≠ 0 →
    (passesCampaign placed k = true ↔
      ∀ t ∈ placed, t.owner ≠ k.owner → t.claim.campaign = k.claim.campaign → t.meets k = false)) ∧
  (∀ (placed : List OwnedClaim) (k : OwnedClaim), (∀ t ∈ placed, t.owner = k.owner) →
    passesCampaign placed k = true) ∧
  ∀ a b : OwnedClaim, a.claim.stop = b.claim.start →
    (a.claim.stop - a.claim.start).toNat ≤ 8388607 → (b.claim.stop - b.claim.start).toNat ≤ 8388607 →
    a.meets b = false

/-- The budget test (R68): a claim passes when at every frame of its interval fewer than C other owners hold a seat,
and its own owner is left out of the count. With C = 1 that says that no seated claim of another owner intersects
it. -/
def Obligations.BudgetTest : Prop :=
  (∀ (limit : Nat) (placed : List OwnedClaim) (k : OwnedClaim),
    passesBudget limit placed k = true ↔
      ∀ x, k.holdsFrame x = true →
        stations.countP (fun o => o != k.owner && placed.any (fun t => t.owner == o && t.holdsFrame x)) <
          limit) ∧
  ∀ (placed : List OwnedClaim) (k : OwnedClaim), (∀ t ∈ placed, t.owner < 16) →
    k.claim.start ≠ k.claim.stop →
    (passesBudget 1 placed k = true ↔ ∀ t ∈ placed, t.owner ≠ k.owner → t.meets k = false)

/-- The walk and the law of seat resolution (R66): the live claims are walked in rank order and every one receives
exactly one result, judged against the claims seated before it; no frame is held by seated claims of more than C owners,
and no two intersecting seated claims of different owners share a non-zero campaign. What is written is each claim's
result and rank, both absent when it is not live, and the last resolution HF (R63, R64). A claim ranks ahead of another
by class, posted frame, owner and tag, in turn (R65). That the walk takes the claims by how many rank ahead of them is
the order of R65 where R65 orders them all, and the model's where posted frames compare in a circle (log 13). -/
def Obligations.SeatResolutionLaw : Prop :=
  (∀ a b : OwnedClaim,
    let level := fun (x y : Frame) => ahead x y = false ∧ ahead y x = false
    (a.ranksAhead b = true ↔
      (a.claim.cls = .onAir ∧ b.claim.cls ≠ .onAir ∨ a.claim.cls = .locked ∧ b.claim.cls = .opened) ∨
      a.claim.cls = b.claim.cls ∧
        (ahead b.claim.posted a.claim.posted = true ∨
          level a.claim.posted b.claim.posted ∧
            (a.owner < b.owner ∨ a.owner = b.owner ∧ a.claim.tag < b.claim.tag)))) ∧
  ∀ (m : Mirror) (limit : Nat) (hf : Frame),
    let results := m.results limit hf
    let seated := (results.filter (fun p => p.2 = .seated)).map (·.1)
    let live := m.liveClaims hf
    (results.map (·.1)).Perm live ∧
    results.Pairwise (fun p q => precedence live p.1 ≤ precedence live q.1) ∧
    (∀ pre k res post, results = pre ++ (k, res) :: post →
      let placed := (pre.filter (fun p => p.2 = .seated)).map (·.1)
      (passesCampaign placed k = false → res = .unseatedCampaign) ∧
      (passesCampaign placed k = true → passesBudget limit placed k = false → res = .unseatedBudget) ∧
      (passesCampaign placed k = true → passesBudget limit placed k = true → res = .seated)) ∧
    (∀ x : Frame,
      stations.countP (fun o => seated.any (fun t => t.owner == o && t.holdsFrame x)) ≤ limit) ∧
    (∀ a ∈ seated, ∀ b ∈ seated, a.owner ≠ b.owner → a.meets b = true →
      a.claim.campaign = b.claim.campaign → a.claim.campaign = 0) ∧
    (m.resolved limit hf).lastResolution = some hf ∧
    (∀ i, ∀ d ∈ ((m.resolved limit hf).entry i).claims,
      (d.claim.live hf = false → d.seat = none ∧ d.rank = none) ∧
      (d.claim.live hf = true → ∃ (k : Nat) (res : SeatResult),
        results[k]? = some ({ owner := i, claim := d.claim }, res) ∧ d.seat = some res ∧ d.rank = some (k + 1))) ∧
    ∀ i, ((m.resolved limit hf).entry i).writtenHf = (m.entry i).writtenHf ∧
      ((m.resolved limit hf).entry i).claims.map (·.claim) = (m.entry i).claims.map (·.claim)

/-! ### Chapter 5: own claims -/

/-- The result of an OPEN record's claim. UNSEATED_CAMPAIGN on the primary promo, with an alternate, switches the record
to the alternate: the claim takes its campaign and awaits its repost, and PROMO_SWITCHED(CAMPAIGN) is posted (R83; that
it holds no tag and posted frame until then is log 27). Of any other result, SEATED with no group mismatch counts,
anything else starts the count again, and at S the claim locks with its tag and posted frame kept (R81, R82). A record
claim with a result at a close is judged by it, and a result reaches a claim by the tag it was handed on with, unless it
carries a publish mark (R77, R78). A pending amendment lapses once either commit frame is reached; before that, its
secondary claim settles in the same way and is adopted at S, the record taking its new place (R86, R87, R88). Where R1
does not order the claim starts that place is the model's choice (log 35). -/
def Obligations.OpenClaimSettlesAndLocks : Prop :=
  (∀ (s : State) (x : CloseContext) (r : Junction) (k : OwnClaim) (res : SeatResult) (n : Nat),
    s.junction? r.number = some r → s.claim? r.number .record = some k → k.settle = some n →
    r.state = .opened → (res ≠ .unseatedCampaign ∨ r.promo = .alternate ∨ r.fields.alternate = none) →
    let count := if res = .seated ∧ x.mismatch = false then n + 1 else 0
    let t := s.recordResult x r k res
    s.SameAround t ∧
    (count < x.settle →
      t.claim? r.number .record = some { k with settle := some count } ∧ t.table = s.table ∧
      t.reporting = s.reporting) ∧
    (x.settle ≤ count →
      t.claim? r.number .record = some { k with cls := .locked, settle := none } ∧
      t.junction? r.number = some { r with state := .locked } ∧
      s.Posted t .claimLocked (some r.number) 0 (k.posted.getD 0))) ∧
  (∀ (s : State) (x : CloseContext) (r : Junction) (k : OwnClaim) (alt : Promo),
    s.junction? r.number = some r → s.claim? r.number .record = some k →
    r.state = .opened → r.promo = .primary → r.fields.alternate = some alt →
    let t := s.recordResult x r k .unseatedCampaign
    s.SameAround t ∧
    t.junction? r.number = some { r with promo := .alternate } ∧
    t.claim? r.number .record = some { k with
      campaign := alt.campaign, tag := none, cls := .opened, posted := none, settle := some 0, mark := true } ∧
    s.Posted t .promoSwitched (some r.number) (detailNat 1) (alt.campaign.setWidth 24)) ∧
  (∀ (s : State) (x : CloseContext) (n : JunctionNumber) (r : Junction) (k : OwnClaim),
    s.junction? n = some r → s.claim? n .record = some k →
    (∀ res, s.resultFor x k = some res → s.recordStep x n = s.recordResult x r k res) ∧
    (s.resultFor x k = none → s.recordStep x n = s)) ∧
  (∀ (s : State) (x : CloseContext) (k : OwnClaim) (tag : Byte), k.tag = some tag →
    (k.mark = true ∨ (∀ d ∈ s.publisher.lastChoice, d.tag ≠ tag) ∨ (∀ p ∈ x.results, p.1 ≠ tag) →
      s.resultFor x k = none) ∧
    ∀ (pre post : List (Byte × Option SeatResult)) (res : Option SeatResult),
      k.mark = false → (∃ d ∈ s.publisher.lastChoice, d.tag = tag) →
      x.results = pre ++ (tag, res) :: post → (∀ p ∈ pre, p.1 ≠ tag) → s.resultFor x k = res) ∧
  (∀ (s : State) (n : JunctionNumber) (r : Junction) (cause : LapseCause), s.junction? n = some r →
    let t := s.lapse n cause
    s.SameAround t ∧ t.junction? n = some { r with pending := none } ∧ t.claim? n .secondary = none ∧
    t.claim? n .record = s.claim? n .record ∧ s.Posted t .amendLapsed (some n) (detailOf cause.code) 0) ∧
  ∀ (s : State) (x : CloseContext) (r : Junction) (a : Amendment) (k : OwnClaim),
    s.junction? r.number = some r → r.pending = some a → s.claim? r.number .secondary = some k →
    let n := r.number
    let due := ahead (r.fields.commitFrame s.lead) x.hf = false ∨ ahead (a.fields.commitFrame s.lead) x.hf = false
    let t := s.secondaryStep x n
    (due → t = s.lapse n .commitFrame) ∧
    (¬ due → s.resultFor x k = none → t = s) ∧
    ∀ res, ¬ due → s.resultFor x k = some res →
      let count := if res = .seated ∧ x.mismatch = false then k.settle.getD 0 + 1 else 0
      (count < x.settle → t.claim? n .secondary = some { k with settle := some count } ∧
        t.claim? n .record = s.claim? n .record ∧ t.table = s.table ∧ t.reporting = s.reporting) ∧
      (x.settle ≤ count →
        let adopted := { r with fields := a.fields, promo := a.promo, pending := none }
        t.table = insertByStart adopted (removeNumber n s.table) ∧
        t.claim? n .record = some { k with role := .record, cls := .locked, settle := none } ∧
        t.claim? n .secondary = none ∧
        s.Posted t .amendAdopted (some n) 0 (a.fields.commitFrame s.lead))

/-- A LOCKED record's claim that is found unseated loses its lock, with its tag and posted frame kept; its pending
amendment lapses, and SEAT_CONFLICT is raised with the junction number (R84). The claim of a PRIMED or on-air record
that is found unseated is reported once, until a close seats it again, and keeps its seat in the table (R85). At a
close outside the join grace, a PRESENT peer whose reported bitmap lacks the own station makes every OPEN and LOCKED
record OPEN with its claim to be reposted, and every pending amendment lapse; FORFEIT names the lowest such peer and
the number of claims (R79, R80; that a claim that awaits its repost holds no tag and posted frame is log 27). That the
AMEND_LAPSED events of a forfeit stand before its FORFEIT event is the model's choice (log 16). -/
def Obligations.UnseatedLockIsLost : Prop :=
  (∀ (s : State) (x : CloseContext) (r : Junction) (k : OwnClaim) (res : SeatResult),
    s.junction? r.number = some r → s.claim? r.number .record = some k → r.state = .locked →
    (res = .seated → s.recordResult x r k res = s) ∧
    (res ≠ .seated →
      let t := s.recordResult x r k res
      s.SameAround t ∧
      t.claim? r.number .record = some { k with cls := .opened, settle := some 0 } ∧
      t.junction? r.number = some { r with state := .opened, pending := none } ∧
      (t.reporting.alarms.get .seatConflict).flag = true ∧
      (t.reporting.alarms.get .seatConflict).detail = some (r.number.setWidth 24) ∧
      (r.pending.isSome → t.claim? r.number .secondary = none) ∧
      (r.pending = none → s.reporting.events.length < 31 →
        t.reporting.events.map (fun e => (e.kind, e.junction)) =
          s.reporting.events.map (fun e => (e.kind, e.junction)) ++
            [(.lockLost, some r.number), (.alarm, some r.number)]))) ∧
  (∀ (s : State) (x : CloseContext) (r : Junction) (k : OwnClaim) (res : SeatResult),
    s.junction? r.number = some r → s.claim? r.number .record = some k → r.state.isCommitted = true →
    let t := s.recordResult x r k res
    s.SameAround t ∧ t.table = s.table ∧
    (res = .seated →
      t.claim? r.number .record = some { k with conflict := false } ∧ t.reporting = s.reporting) ∧
    (res ≠ .seated → k.conflict = true → t = s) ∧
    (res ≠ .seated → k.conflict = false →
      t.claim? r.number .record = some { k with conflict := true } ∧
      (t.reporting.alarms.get .seatConflict).flag = true ∧
      (t.reporting.alarms.get .seatConflict).detail = some (r.number.setWidth 24) ∧
      (s.reporting.events.length < 31 → ∃ count : Byte,
        t.reporting.events.map (fun e => (e.kind, e.junction, e.code)) =
          s.reporting.events.map (fun e => (e.kind, e.junction, e.code)) ++
            [(.alarm, some r.number, detailBytes AlarmName.seatConflict.code count 0),
             (.claimUnseated, some r.number, detailOf res.code)]))) ∧
  ∀ (s : State) (x : CloseContext),
    let lacking := fun (i : Nat) => i < 16 ∧ i ≠ x.own ∧ (s.bus.entry i).state = .present ∧
      ∃ h, (s.bus.entry i).heard = some h ∧ h.bitmap.getLsbD x.own = false
    let t := s.stageForfeit x
    (s.publisher.memberCloses ≠ 2 ∨ (∀ i, ¬ lacking i) → t = s) ∧
    ∀ peer, s.publisher.memberCloses = 2 → lacking peer → (∀ i < peer, ¬ lacking i) →
      let hit := s.table.filter (fun r => r.state == .opened || r.state == .locked)
      let amended := s.table.filter (fun r => r.pending.isSome)
      t = { s with table := t.table, publisher := t.publisher, reporting := t.reporting } ∧
      t.publisher = { s.publisher with claims := t.publisher.claims } ∧
      t.table = s.table.map (fun r => { r with
        state := if r.state = .opened ∨ r.state = .locked then .opened else r.state, pending := none }) ∧
      (∀ r ∈ hit, ∀ k, s.claim? r.number .record = some k → t.claim? r.number .record = some { k with
        tag := none, cls := .opened, posted := none, settle := some 0, mark := true }) ∧
      (∀ n, (∀ r ∈ hit, r.number ≠ n) → t.claim? n .record = s.claim? n .record) ∧
      (∀ r ∈ amended, t.claim? r.number .secondary = none) ∧
      (s.reporting.events.length + amended.length < 32 →
        t.reporting.events.map (fun e => (e.kind, e.junction, e.code, e.value)) =
          s.reporting.events.map (fun e => (e.kind, e.junction, e.code, e.value)) ++
            amended.map (fun r => (.amendLapsed, some r.number, detailNat 3, 0)) ++
            (if hit = [] then [] else [(.forfeit, none, detailNat peer, detailNat hit.length)]))

/-- The commit test (R89, R90): a LOCKED record whose claim was handed on as LOCKED at the last close and is SEATED at
this one becomes PRIMED with a fetch entry from clip frame 0 on; any other record whose commit frame is reached ends
DECLINED(NO_LOCK) and leaves the table. At a close outside MEMBER, at which the own entry is empty and so no claim has a
result (R71) and no amendment is pending (R97), every PLANNED record whose commit frame is reached ends DECLINED(SILENT)
and no other record changes (R77, R98). -/
def Obligations.CommitTest : Prop :=
  (∀ (s : State) (x : CloseContext) (r : Junction), s.junction? r.number = some r →
    let allowed := r.state = .locked ∧ ∃ k, s.claim? r.number .record = some k ∧
      s.resultFor x k = some .seated ∧
      ∃ d ∈ s.publisher.lastChoice, k.tag = some d.tag ∧ d.cls = .locked
    let t := s.commitTest x r.number
    (allowed → t.junction? r.number = some { r with state := .primed } ∧
      (s.engine.entries.all (fun e => e.junction != r.number) = true →
        ∃ e ∈ t.engine.entries, e.junction = r.number ∧
          e.clip = r.fields.clipOf r.promo ∧ e.needed = r.fields.rin + r.fields.hold + r.fields.rout ∧
          e.fetchIndex ≤ 1) ∧
      s.Posted t .junctionCommitted (some r.number) 0 (r.fields.commitFrame s.lead)) ∧
    (¬ allowed → t.table = removeNumber r.number s.table ∧
      (∀ k ∈ t.publisher.claims, k.junction ≠ r.number) ∧
      s.Posted t .junctionEnd (some r.number) (detailBytes 3 5 0)
        (r.actualFirst.getD (r.fields.commitFrame s.lead)))) ∧
  ∀ (s : State) (x : CloseContext), x.station ≠ .member → x.results = [] → (∀ r ∈ s.table, r.pending = none) →
    (s.table.map (·.number)).Nodup →
    let gone := fun (r : Junction) => r.state == .planned && !ahead (r.fields.commitFrame s.lead) x.hf
    let t := s.publisherClose x
    s.SameAround t ∧ t.bus = s.bus ∧ t.mirror = s.mirror ∧ t.table = s.table.filter (fun r => !gone r) ∧
    t.publisher = { s.publisher with
      claims := s.publisher.claims.filter (fun k => (s.table.filter gone).all (fun r => r.number != k.junction)) } ∧
    (s.reporting.events.length + (s.table.filter gone).length ≤ 32 →
      t.reporting.events.map (fun e => (e.kind, e.junction, e.code)) =
        s.reporting.events.map (fun e => (e.kind, e.junction, e.code)) ++
          (s.table.filter gone).map (fun r => (.junctionEnd, some r.number, detailBytes 3 6 0)))

/-! ### Chapter 3 and Section 10: orders -/

/-- Asserting OSEL begins an exchange in which ODO carries zeros alone; deasserting it ends the exchange at once, with
the rest of a reply not sent (R177). That OSEL asserted while an exchange is open changes nothing is the model's
(log 3). What an order frame meets before its own rules (R178): outside an exchange that
reads, nothing (log 17); a wrong CRC-16, CHECK_ERROR; a length that does not fit its kind, REFUSED_FORMAT; a kind that
is none of the twelve, the same. In each the part is as it was. -/
def Obligations.OrderFrameChecked : Prop :=
  (∀ s : State,
    (s.exchange = .idle → exec .oselAsserted s = .next { s with exchange := .reading }) ∧
    (s.exchange ≠ .idle → exec .oselAsserted s = .next s) ∧
    exec .oselDeasserted s = .next { s with exchange := .idle } ∧
    Exchange.odo .reading = [] ∧
    ∀ r : Reply, Exchange.odo (.replying r) = 0 :: 0 :: r.frame) ∧
  (∀ (k : OrderKind) (p : List Byte) (crc : Half) (s : State),
    (s.exchange ≠ .reading → exec (k.command p crc) s = .next s) ∧
    (s.exchange = .reading → crc ≠ orderCrc k.code p →
      exec (k.command p crc) s = .next (s.replied .checkError [])) ∧
    (s.exchange = .reading → crc = orderCrc k.code p → ¬ k.Fits p →
      exec (k.command p crc) s = .next (s.replied .refusedFormat []))) ∧
  ∀ (code : Byte) (p : List Byte) (crc : Half) (s : State), s.exchange = .reading →
    (crc ≠ orderCrc code p → exec (.unknownOrderKind code p crc) s = .next (s.replied .checkError [])) ∧
    (crc = orderCrc code p → exec (.unknownOrderKind code p crc) s = .next (s.replied .refusedFormat []))

/-- An order that is not ACCEPTED leaves the part as it was, apart from the reply (R178, R41, R44, R191). -/
def Obligations.RefusedOrderLeavesPart : Prop :=
  ∀ (k : OrderKind) (p : List Byte) (crc : Half) (s t : State) (r : Reply), s.exchange = .reading →
    exec (k.command p crc) s = .next t → t.exchange = .replying r → r.status ≠ .accepted →
    t = { s with exchange := t.exchange }

/-- CONFIGURE (R180, R181, R30): taken once after reset; the record in range is stored, the digest computed over N, C
and S, the station leaves UNCONFIGURED, the cue lines go to rest, both layout slots are set and the ring has its
slots. -/
def Obligations.ConfigureOrder : Prop :=
  ∀ (s : State) (p : List Byte) (crc : Half), s.Takes .configure p crc →
    (s.bus.station ≠ .unconfigured →
      exec (.configure p crc) s = .next (s.replied .refusedState [])) ∧
    (s.bus.station = .unconfigured → decodeConfiguration p = none →
      exec (.configure p crc) s = .next (s.replied .refusedRange [])) ∧
    ∀ c, s.bus.station = .unconfigured → decodeConfiguration p = some c →
      let digest := crc16 [byte1 c.slots, byte1 c.concurrency, byte1 c.settle]
      exec (.configure p crc) s = .next { (s.replied .accepted (halfBytes digest)) with
        config := some c
        bus := { s.bus with
          digest := some digest
          station := if s.timing.refState = .locked then .listening else .silentReference
          listening := 0 }
        sequencer := { s.sequencer with lines := c.rests }
        layouts := { slot0 := Layout.default, slot1 := Layout.default, active := .l0, staged := none }
        ring := { s.ring with slots := List.replicate c.depth none } }

/-- PLAN (R41, R42): the first check that fails gives the refusal; a plan that passes them all enters the table in
its place by claim start, PLANNED, and its reply carries its four derived frames (R37). That place is before the first
record that the claim start is behind. Where R1 orders the claim starts it is the place of R38; where R1 does not, it is
the model's choice (log 35). -/
def Obligations.PlanOrder : Prop :=
  ∀ (s : State) (p : List Byte) (crc : Half), s.Takes .plan p crc →
    let n := payloadNumber p
    let refuses := fun st => exec (.plan p crc) s = .next (s.replied st [])
    let open1 := s.bus.station ≠ .unconfigured ∧ s.timing.hfValid = true
    let room := s.table.length < 16
    let new := s.junction? n = none
    (¬ open1 → refuses .refusedState) ∧
    (open1 → ¬ room → refuses .refusedFull) ∧
    (open1 → room → ¬ new → refuses .refusedDuplicate) ∧
    (open1 → room → new → decodeFieldSet p = none → refuses .refusedRange) ∧
    ∀ f, open1 → room → new → decodeFieldSet p = some f →
      let apart := ∀ r ∈ s.table, f.overlaps r.fields = false ∧
        ∀ a, r.pending = some a → f.overlaps a.fields = false
      let early := ahead (f.commitFrame s.lead) s.hf = true ∧
        ∀ r ∈ s.table, r.state.isCommitted = true → behind f.claimStart r.fields.claimStart = false
      (s.fieldsInRange n f = false → refuses .refusedRange) ∧
      (s.fieldsInRange n f = true → f.longEnough = false → refuses .refusedLength) ∧
      (s.fieldsInRange n f = true → f.longEnough = true → ¬ apart → refuses .refusedOverlap) ∧
      (s.fieldsInRange n f = true → f.longEnough = true → apart → ¬ early → refuses .refusedLate) ∧
      (s.fieldsInRange n f = true → f.longEnough = true → apart → early → ∃ pre post,
        s.table = pre ++ post ∧
        (∀ y ∈ pre, behind f.claimStart y.fields.claimStart = false) ∧
        (∀ y ∈ post.head?, behind f.claimStart y.fields.claimStart = true) ∧
        exec (.plan p crc) s = .next { (s.replied .accepted
            (frameBytes (f.snom - BitVec.ofNat 24 f.early) ++
              frameBytes (f.snom + BitVec.ofNat 24 (f.rin + f.hold + f.rout)) ++
              frameBytes (f.snom + BitVec.ofNat 24 f.hold - BitVec.ofNat 24 f.minHold) ++
              frameBytes (f.snom - BitVec.ofNat 24 f.early - BitVec.ofNat 24 s.lead))) with
          table := pre ++
            { number := n, fields := f, state := .planned, promo := .primary, pending := none,
              actualFirst := none, actualHold := none, ending := none } :: post })

/-- AMEND sets the promo in use of the amended field set first (R43): PRIMARY stays; ALTERNATE stays while the new
field set has an alternate, with its campaign; without one it becomes PRIMARY, with the new primary's campaign, which
the claim-keeping test compares with the campaign that was in use before. -/
def Obligations.AmendSetsPromoInUse : Prop :=
  ∀ (r : Junction) (f : FieldSet),
    let p := amendedPromo r.promo f
    (r.promo = .primary → p = .primary ∧ f.campaignOf p = f.primary.campaign) ∧
    (∀ a, r.promo = .alternate → f.alternate = some a → p = .alternate ∧ f.campaignOf p = a.campaign) ∧
    (r.promo = .alternate → f.alternate = none → p = .primary ∧ f.campaignOf p = f.primary.campaign) ∧
    (r.keepsClaim f p = true ↔
      liesWithin f.claimStart f.claimEnd r.fields.claimStart r.fields.claimEnd = true ∧
        f.campaignOf p = r.campaign)

/-- AMEND's checks (R44): the first that fails gives the refusal, the record's own intervals left out of the overlap
test. -/
def Obligations.AmendChecks : Prop :=
  ∀ (s : State) (p : List Byte) (crc : Half), s.Takes .amend p crc →
    let n := payloadNumber p
    let refuses := fun st => exec (.amend p crc) s = .next (s.replied st [])
    let open1 := s.bus.station ≠ .unconfigured ∧ s.timing.hfValid = true
    (¬ open1 → refuses .refusedState) ∧
    (open1 → s.junction? n = none → refuses .refusedUnknown) ∧
    ∀ r, open1 → s.junction? n = some r →
      (r.state.isCommitted = true → refuses .refusedLate) ∧
      (r.state.isCommitted = false → decodeFieldSet p = none → refuses .refusedRange) ∧
      ∀ f, r.state.isCommitted = false → decodeFieldSet p = some f →
        let others := s.table.filter (fun y => y.number != n)
        let apart := ∀ y ∈ others, f.overlaps y.fields = false ∧
          ∀ a, y.pending = some a → f.overlaps a.fields = false
        let early := ahead (f.commitFrame s.lead) s.hf = true ∧
          ∀ y ∈ others, y.state.isCommitted = true → behind f.claimStart y.fields.claimStart = false
        (s.fieldsInRange n f = false → refuses .refusedRange) ∧
        (s.fieldsInRange n f = true → f.longEnough = false → refuses .refusedLength) ∧
        (s.fieldsInRange n f = true → f.longEnough = true → ¬ apart → refuses .refusedOverlap) ∧
        (s.fieldsInRange n f = true → f.longEnough = true → apart → ¬ early → refuses .refusedLate)

/-- The path of an AMEND that passes its checks (R45 to R49): REPLACED for a PLANNED record, KEPT or REPOSTED for an
OPEN one; a LOCKED record's amendment that keeps the claim is applied in place and discards a pending one, any other
becomes or replaces the pending amendment, and a first one is refused when no position is free. That a claim that awaits
its repost holds no tag and no posted frame is log 27, with Sections 5.1 and 11.6. The place of the changed record in
the table is that of R38 where R1 orders the claim starts, and the model's choice where it does not (log 35). -/
def Obligations.AmendPaths : Prop :=
  ∀ (s : State) (p : List Byte) (crc : Half) (r : Junction) (f : FieldSet), s.Takes .amend p crc →
    s.bus.station ≠ .unconfigured → s.timing.hfValid = true → s.junction? (payloadNumber p) = some r →
    decodeFieldSet p = some f →
    s.fieldsRefusal (payloadNumber p) f (removeNumber (payloadNumber p) s.table) = none →
    let n := r.number
    let promo := amendedPromo r.promo f
    let keeps := r.keepsClaim f promo = true
    let reply := fun (t : State) (code : Byte) => t.replied .accepted (f.derived s.lead ++ [code])
    let moved := (s.replaceJunction { r with fields := f, promo := promo }).updateClaim n .record
      (fun k => { k with start := f.claimStart, stop := f.claimEnd, campaign := f.campaignOf promo })
    let held := s.updateJunction n (fun y => { y with pending := some { fields := f, promo := promo } })
    (r.state = .planned → exec (.amend p crc) s = .next (reply moved 1)) ∧
    (r.state = .opened → keeps → exec (.amend p crc) s = .next (reply moved 2)) ∧
    (r.state = .opened → ¬ keeps → exec (.amend p crc) s = .next (reply (moved.updateClaim n .record
      (fun k => { k with
        tag := none, cls := .opened, posted := none, settle := some 0, mark := true })) 3)) ∧
    (r.state = .locked → keeps → r.pending = none → exec (.amend p crc) s = .next (reply moved 2)) ∧
    (r.state = .locked → keeps → r.pending.isSome →
      exec (.amend p crc) s = .next (reply (moved.lapse n .superseded) 2)) ∧
    (r.state = .locked → ¬ keeps → r.pending = none → s.positionsAhead ≤ 3 →
      exec (.amend p crc) s = .next (reply (held.addClaim (secondaryClaim n f promo)) 4)) ∧
    (r.state = .locked → ¬ keeps → r.pending = none → 3 < s.positionsAhead →
      exec (.amend p crc) s = .next (s.replied .refusedFull [])) ∧
    (r.state = .locked → ¬ keeps → r.pending.isSome → exec (.amend p crc) s = .next (reply
      (held.updateClaim n .secondary (fun k => { k with
        start := f.claimStart, stop := f.claimEnd, campaign := f.campaignOf promo, tag := none,
        cls := .opened, posted := none, settle := some 0, mark := true })) 4))

/-- CANCEL (R50, R51, R40, R130): an unknown number is refused; a pre-air record ends CANCELLED and leaves the table,
the publisher and the engine, with one JUNCTION_END event; an on-air one is asked to release, and a later request is
only noted. -/
def Obligations.CancelOrder : Prop :=
  ∀ (s : State) (p : List Byte) (crc : Half), s.Takes .cancel p crc →
    let n := payloadNumber p
    (s.junction? n = none → exec (.cancel p crc) s = .next (s.replied .refusedUnknown [])) ∧
    ∀ r, s.junction? n = some r →
      (r.state.isOnAir = false → ∃ t, exec (.cancel p crc) s = .next t ∧
        t.exchange = .replying { status := .accepted, payload := [] } ∧
        t = { s with
          table := removeNumber n s.table, publisher := t.publisher, engine := t.engine, ring := t.ring,
          reporting := t.reporting, exchange := t.exchange } ∧
        t.publisher = { s.publisher with
          claims := s.publisher.claims.filter (fun k => k.junction != n) } ∧
        (∀ e ∈ t.engine.entries, e.junction ≠ n) ∧
        (∀ u, some u ∈ t.ring.slots → u.junction = n → u.state = .filling) ∧
        s.Posted t .junctionEnd (some n) (detailBytes 5 0 0)
          (r.actualFirst.getD (r.fields.commitFrame s.lead))) ∧
      (r.state.isOnAir = true → s.sequencer.onAir = some n →
        (s.sequencer.reason = none → exec (.cancel p crc) s =
          .next { (s.replied .accepted []) with sequencer := { s.sequencer with reason := some .cancel } }) ∧
        (s.sequencer.reason.isSome → exec (.cancel p crc) s =
          .next ((s.post .releaseNoted (some n) (detailNat 2) (detailNat s.sequencer.frameCounter)).replied
            .accepted [])))

/-- WITHDRAW_ALL (R52): every record not on air ends CANCELLED, in table order, and leaves the table with its claims and
its fetch entry, each with its JUNCTION_END event of outcome CANCELLED; the reply carries how many. Records have
distinct numbers in every table that `TableSound` describes. -/
def Obligations.WithdrawAllOrder : Prop :=
  ∀ (s : State) (p : List Byte) (crc : Half), s.Takes .withdrawAll p crc →
    (s.table.map (·.number)).Nodup →
    let gone := s.table.filter (fun r => !r.state.isOnAir)
    ∃ t, exec (.withdrawAll p crc) s = .next t ∧
      t.exchange = .replying { status := .accepted, payload := [byte1 gone.length] } ∧
      t = { s with
        table := s.table.filter (fun r => r.state.isOnAir), publisher := t.publisher, engine := t.engine,
        ring := t.ring, reporting := t.reporting, exchange := t.exchange } ∧
      t.publisher = { s.publisher with
        claims := s.publisher.claims.filter (fun k => gone.all (fun r => r.number != k.junction)) } ∧
      (∀ r ∈ gone, ∀ e ∈ t.engine.entries, e.junction ≠ r.number) ∧
      (s.reporting.events.length + gone.length ≤ 32 →
        t.reporting.events.map (fun e => (e.kind, e.junction, e.code, e.value)) =
          s.reporting.events.map (fun e => (e.kind, e.junction, e.code, e.value)) ++
            gone.map (fun r => (.junctionEnd, some r.number, detailBytes 5 0 0,
              r.actualFirst.getD (r.fields.commitFrame s.lead))))

/-- The table keeps its form (R36, R38, R39): at most 16 records, distinct numbers from 1 on, and no two records whose
claim intervals, or a pending amendment's, intersect. It stays in ascending order of claim start as records join, leave
and move (R38), while R1 orders the claim starts. That it does is the manual's premise (Section 3.1, the planning
reach); a part whose HF runs on for 2^23 frames with no close and no jump leaves it, and the place taken then is
log 35. -/
def Obligations.TableSoundKept : Prop :=
  ∀ s t : State, step s = .next t →
    (TableSound s.table → TableSound t.table) ∧
    (StartsTogether s.table → StartsTogether t.table → InOrder s.table → InOrder t.table)

/-- LAYOUT (R144) writes the slot that is not active and sets the staged mode; a layout staged AT_FRAME is loaded when
a boundary reaches the Layout Store, with its event (R145). One staged AT_RAMP_END is loaded at a ramp-end notice
(R146). At a start, a record's own layout is written over the slot that is not active, a staged layout is dropped with
its event, and the own one is loaded (R148); without one, a layout staged AT_JUNCTION is loaded (R147), and with Rin 0
or 1 the ramp-end notice of the start loads one staged AT_RAMP_END (R123, R146). -/
def Obligations.LayoutStagedAndLoaded : Prop :=
  (∀ (s : State) (p : List Byte) (crc : Half), s.Takes .layout p crc →
    let l := decodeLayout p 0
    (s.bus.station = .unconfigured → exec (.layout p crc) s = .next (s.replied .refusedState [])) ∧
    (s.bus.station ≠ .unconfigured → l.valid = false ∨ LoadMode.ofCode (num1 p 17) = none →
      exec (.layout p crc) s = .next (s.replied .refusedRange [])) ∧
    ∀ m, s.bus.station ≠ .unconfigured → l.valid = true → LoadMode.ofCode (num1 p 17) = some m →
      ∃ t, exec (.layout p crc) s = .next t ∧ t = { s with layouts := t.layouts, exchange := t.exchange } ∧
        t.layouts.active = s.layouts.active ∧ t.layouts.get t.layouts.active = s.layouts.get s.layouts.active ∧
        t.layouts.get t.layouts.active.other = l ∧ t.layouts.staged = some m ∧
        t.exchange = .replying { status := .accepted, payload :=
          [s.layouts.active.other.code, byteFlag s.layouts.staged.isSome] }) ∧
  ∀ s : State,
    let slot := s.layouts.active.other
    let loaded := fun (cause : Nat) (j : Option JunctionNumber) => { s with
      layouts := { s.layouts with active := slot, staged := none }
      reporting := (s.post .layoutLoaded j (detailNat cause) (detailOf slot.code)).reporting }
    (∀ b x, (s.layouts.staged = some .atFrame → s.boundaryOp b x .layoutLoad = loaded 1 s.sequencer.onAir) ∧
      (s.layouts.staged ≠ some .atFrame → s.boundaryOp b x .layoutLoad = s)) ∧
    (∀ n, (s.layouts.staged = some .atRampEnd → s.rampEndNotice n = loaded 2 (some n)) ∧
      (s.layouts.staged ≠ some .atRampEnd → s.rampEndNotice n = s)) ∧
    ∀ r : Junction,
      (∀ l, r.fields.layout = some l → ∃ t, s.startLayouts r = t ∧
        t = { s with layouts := t.layouts, reporting := t.reporting } ∧
        t.layouts.active = slot ∧ t.layouts.staged = none ∧ t.layouts.get slot = l ∧
        t.layouts.get slot.other = s.layouts.get slot.other ∧
        (s.layouts.staged = none → t.reporting =
          (s.post .layoutLoaded (some r.number) (detailNat 4) (detailOf slot.code)).reporting) ∧
        ∀ m, s.layouts.staged = some m → t.reporting =
          ((s.post .layoutDropped (some r.number) (detailOf m.code) (detailOf slot.code)).post .layoutLoaded
            (some r.number) (detailNat 4) (detailOf slot.code)).reporting) ∧
      (r.fields.layout = none →
        (s.layouts.staged = some .atJunction → s.startLayouts r = loaded 3 (some r.number)) ∧
        (s.layouts.staged = some .atRampEnd → r.fields.rin ≤ 1 → s.startLayouts r = loaded 2 (some r.number)) ∧
        (s.layouts.staged ≠ some .atJunction → ¬ (s.layouts.staged = some .atRampEnd ∧ r.fields.rin ≤ 1) →
          s.startLayouts r = s))

/-- The queries (R182 to R184, R25): each is a snapshot that changes nothing but the reply, QUERY_JUNCTION of an
unknown number is refused, and QUERY_MIRROR with choice 1 clears the corrupt and silent counts after the snapshot. -/
def Obligations.QueriesReport : Prop :=
  ∀ (s : State) (p : List Byte) (crc : Half),
    (s.Takes .queryStatus p crc →
      exec (.queryStatus p crc) s = .next (s.replied .accepted s.statusReport) ∧
      s.statusReport.length = 165 + 3 * s.table.length + 8 * s.ring.slots.length) ∧
    (s.Takes .queryJunction p crc →
      (s.junction? (payloadNumber p) = none →
        exec (.queryJunction p crc) s = .next (s.replied .refusedUnknown [])) ∧
      ∀ r, s.junction? (payloadNumber p) = some r →
        exec (.queryJunction p crc) s = .next (s.replied .accepted (s.junctionReport r)) ∧
        (r.fields.encode r.number ++ r.fields.derived s.lead ++ [r.state.code, r.promo.code]) <+:
          s.junctionReport r) ∧
    (s.Takes .queryMirror p crc →
      (num1 p 0 = 0 → exec (.queryMirror p crc) s = .next (s.replied .accepted s.mirrorReport)) ∧
      (num1 p 0 = 1 → ∃ t, exec (.queryMirror p crc) s = .next t ∧
        t = { (s.replied .accepted s.mirrorReport) with bus := t.bus } ∧
        t.bus = { s.bus with presence := t.bus.presence } ∧
        ∀ i, t.bus.entry i = { s.bus.entry i with corrupt := 0, silent := 0 }) ∧
      (2 ≤ num1 p 0 → exec (.queryMirror p crc) s = .next (s.replied .refusedRange [])) ∧
      ((∀ i, (s.mirror.entry i).claims.length ≤ 4) → s.mirrorReport.length = 1332))

/-- READ_EVENTS (R187): a count of 1 to 8 removes the oldest events, as many as the count or as are held, and the
reply carries them oldest first; an event posted afterwards enters when there is room. -/
def Obligations.ReadEventsOrder : Prop :=
  ∀ (s : State) (p : List Byte) (crc : Half), s.Takes .readEvents p crc →
    let n := num1 p 0
    (n < 1 ∨ 8 < n → exec (.readEvents p crc) s = .next (s.replied .refusedRange [])) ∧
    (1 ≤ n → n ≤ 8 →
      let out := s.reporting.events.take n
      out.length = min n s.reporting.events.length ∧
      ∃ t, exec (.readEvents p crc) s = .next t ∧
        t = { (s.replied .accepted (byte1 out.length :: out.flatMap Event.encode)) with
          reporting := { s.reporting with events := t.reporting.events } } ∧
        s.reporting.events = out ++ t.reporting.events ∧
        ∀ k j c v, t.Posted (t.post k j c v) k j c v)

/-! ### Sections 10.4 and 10.5: events and alarms -/

/-- The queue never holds more than 32 events, and their sequence numbers ascend by one to the next one (R185). -/
def Obligations.EventQueueSoundKept : Prop :=
  ∀ s t : State, s.reporting.Sound → step s = .next t → t.reporting.Sound

/-- An event posted at a full queue is dropped: it takes no sequence number, and EVENT_OVERFLOW is raised with its
kind and posts no event. An alarm raised at a full queue keeps its raise, and its dropped ALARM event raises
EVENT_OVERFLOW (R186). -/
def Obligations.EventDroppedAtFullQueue : Prop :=
  ∀ (s : State), s.reporting.events.length = 32 →
    (∀ k j c v, s.post k j c v = { s with reporting := { s.reporting with alarms := { s.reporting.alarms with
      eventOverflow :=
        { flag := true, count := s.reporting.alarms.eventOverflow.count + 1,
          detail := some (k.code.setWidth 24) } } } }) ∧
    ∀ (n : AlarmName) (d : BitVec 24) (j : Option JunctionNumber), n ≠ .eventOverflow →
      let t := s.raiseAlarm n d j
      t = { s with reporting := t.reporting } ∧
      t.reporting.events = s.reporting.events ∧ t.reporting.nextSeq = s.reporting.nextSeq ∧
      t.reporting.alarms.get n =
        { flag := true, count := (s.reporting.alarms.get n).count + 1, detail := some d } ∧
      t.reporting.alarms.eventOverflow =
        { flag := true, count := s.reporting.alarms.eventOverflow.count + 1, detail := some 50 }

/-- Raising an alarm sets its flag whether it was set or clear, counts modulo 256 and keeps the detail; every alarm but
EVENT_OVERFLOW then posts an ALARM event that carries the alarm and its new count (R189, R190). -/
def Obligations.AlarmRaised : Prop :=
  ∀ (s : State) (n : AlarmName) (d : BitVec 24) (j : Option JunctionNumber), n ≠ .eventOverflow →
    s.reporting.events.length < 32 →
    let a := s.reporting.alarms.get n
    let t := s.raiseAlarm n d j
    t = { s with reporting := t.reporting } ∧
    t.reporting.alarms.get n = { flag := true, count := a.count + 1, detail := some d } ∧
    (∀ m, m ≠ n → t.reporting.alarms.get m = s.reporting.alarms.get m) ∧
    s.Posted t .alarm j (detailBytes n.code (a.count + 1) 0) d ∧
    t.attn = true

/-- CLEAR_ALARM (R191): an alarm that is none of the eight is out of range; the count that equals the alarm's clears
the flag alone; any other is stale and the reply carries the count. A flag that was set is clear after a command only
by such a CLEAR_ALARM or by RESET; a raise before the clear makes it stale, 256 raises bring the count back, and a raise
after the clear sets the flag. -/
def Obligations.AlarmClearedOnlyByItsCount : Prop :=
  (∀ (s : State) (p : List Byte) (crc : Half), s.Takes .clearAlarm p crc →
    (AlarmName.ofCode (num1 p 0) = none →
      exec (.clearAlarm p crc) s = .next (s.replied .refusedRange [])) ∧
    ∀ n, AlarmName.ofCode (num1 p 0) = some n →
      let a := s.reporting.alarms.get n
      (num1 p 1 = a.count.toNat → ∃ t, exec (.clearAlarm p crc) s = .next t ∧
        t = { (s.replied .accepted []) with
          reporting := { s.reporting with alarms := t.reporting.alarms } } ∧
        t.reporting.alarms.get n = { a with flag := false } ∧
        (∀ m, m ≠ n → t.reporting.alarms.get m = s.reporting.alarms.get m) ∧
        ∀ d, ((t.reporting.raise n d).alarms.get n).flag = true) ∧
      (num1 p 1 ≠ a.count.toNat →
        exec (.clearAlarm p crc) s = .next (s.replied .refusedStale [a.count])) ∧
      (num1 p 1 = a.count.toNat → ∀ d,
        let raised := { s with reporting := s.reporting.raise n d }
        exec (.clearAlarm p crc) raised = .next (raised.replied .refusedStale [a.count + 1])) ∧
      ∀ d, (((fun q => Reporting.raise q n d)^[256] s.reporting).alarms.get n).count = a.count) ∧
  ∀ (c : Instr) (s t : State) (n : AlarmName), exec c s = .next t →
    (s.reporting.alarms.get n).flag = true → (t.reporting.alarms.get n).flag = false →
    c = .reset ∨ ∃ p crc, c = .clearAlarm p crc ∧ s.Takes .clearAlarm p crc ∧
      AlarmName.ofCode (num1 p 0) = some n ∧ num1 p 1 = (s.reporting.alarms.get n).count.toNat

/-! ### Chapter 9: the store link and the Frame Ring -/

/-- A word of the store link that arrives with no request on the link is discarded, and the two limits do not occur in
a state that does not time them (R158; the limits are log 3). A block of a run that keeps the protocol is delivered,
flagged, or condemns the frame; one that arrives while run discarding is set is only counted on; one out of place breaks
the run (R159, R163). In a run that is broken the words before its END or DISCONNECT are discarded (R159; of RETRY and
ABORT this is log 14). -/
def Obligations.StoreBlockJudged : Prop :=
  (∀ s : State,
    (s.engine.state = .idle ∨ s.engine.state = .backoff ∨ s.engine.state = .halted →
      ∀ w ∈ [Instr.storeEnd, .storeDisconnect, .storeRetry, .storeAbort, .noAnswerLimit],
        exec w s = .next s) ∧
    (s.engine.state = .idle ∨ s.engine.state = .backoff ∨ s.engine.state = .halted →
      ∀ index header payload parity, exec (.storeBlock index header payload parity) s = .next s) ∧
    (s.engine.state ≠ .backoff → exec .backoffExpiry s = .next s) ∧
    (s.engine.state = .receiving → s.engine.broken = true →
      exec .storeRetry s = .next s ∧ exec .storeAbort s = .next s ∧
      ∀ index header payload parity, exec (.storeBlock index header payload parity) s = .next s)) ∧
  ∀ (s : State) (r : Request) (index : Nat) (header parity : LinkWord) (payload : List LinkWord),
    (s.engine.state = .requesting ∨ s.engine.state = .receiving) → s.engine.request = some r →
    s.engine.broken = false →
    let good := payload.foldl (fun a w => a ^^^ w) header = parity
    let inPlace := index = s.engine.expect ∧ index < r.first + r.count
    let g := { s.engine with state := .receiving, expect := index + 1 }
    let run := exec (.storeBlock index header payload parity) s
    (inPlace → s.engine.discarding = true → run = .next { s with engine := g }) ∧
    (inPlace → s.engine.discarding = false → good → run = .next { s with
      engine := { g with
        retry := 0, refetch := if s.engine.refetch = some index then none else s.engine.refetch }
      ring := s.ring.update (fun u => u.state == .filling)
        (fun u => { u with blocks := u.blocks + 1, data := u.data ++ [payload] }) }) ∧
    (inPlace → s.engine.discarding = false → ¬ good → s.engine.refetch = none →
      run = .next { s with engine := { g with refetch := some index, discarding := true } }) ∧
    (inPlace → s.engine.discarding = false → ¬ good → s.engine.refetch.isSome →
      run = .next { s with engine := { g with condemned := true, discarding := true } }) ∧
    (¬ inPlace → run = .next { s with engine :=
      { s.engine with state := .receiving, broken := true, discarding := true } })

/-- The end of a run of a request that is not orphaned. A run that kept the protocol, ended by END after its last
requested block or by a DISCONNECT: a condemned frame becomes DAMAGED with a STALL event, a flagged block is asked for
alone, a frame of 135 blocks becomes READY, and any other is asked for from its next block on (R164, R165; a frame of
135 blocks at an earlier DISCONNECT is log 15). A broken run, ended by END or DISCONNECT once it is broken, or by the
RETRY, ABORT or early END that breaks it: a condemned frame becomes DAMAGED, and any other end counts as a RETRY
(R159, R166). -/
def Obligations.StoreRunEnds : Prop :=
  ∀ (s : State) (r : Request), s.engine.state = .receiving → s.engine.request = some r → r.orphaned = false →
    let whole := s.engine.expect = r.first + r.count
    let gone := fun (w : Instr) (cause : Nat) => ∃ t, exec w s = .next t ∧ s.ring.FillingDamaged t.ring ∧
      s.Posted t .stall (some r.junction) (detailNat cause) (detailNat r.index)
    (s.engine.broken = false → ∀ w, w = Instr.storeDisconnect ∨ (w = Instr.storeEnd ∧ whole) →
      (s.engine.condemned = true → gone w 1) ∧
      (s.engine.condemned = false → s.AsksAgain r (exec w s))) ∧
    ∀ w, (s.engine.broken = true ∧ (w = Instr.storeEnd ∨ w = Instr.storeDisconnect) ∨
        s.engine.broken = false ∧
          (w = Instr.storeRetry ∨ w = Instr.storeAbort ∨ (w = Instr.storeEnd ∧ ¬ whole))) →
      (s.engine.condemned = true → gone w 1) ∧
      (s.engine.condemned = false → s.engine.retry < 7 → exec w s = .next { s with engine :=
        { s.engine with state := .backoff, retry := s.engine.retry + 1, broken := true } }) ∧
      (s.engine.condemned = false → 7 ≤ s.engine.retry → gone w 2)

/-- A RETRY reply counts and backs off, and the eighth gives the frame up with a STALL event; after the backoff the
same request is sent again, or after a broken run the flagged block or what is missing (R166). An END or DISCONNECT
before any block, and a RETRY or ABORT within a run, end a broken run, which counts in the same way (R159). After a
broken run whose frame lacks no block the frame becomes READY (log 15). -/
def Obligations.RetryAndBackoff : Prop :=
  ∀ (s : State) (r : Request), s.engine.request = some r → r.orphaned = false →
    let counts := fun (w : Instr) (broken : Bool) =>
      (s.engine.retry < 7 → exec w s = .next { s with engine :=
        { s.engine with state := .backoff, retry := s.engine.retry + 1, broken := broken } }) ∧
      (7 ≤ s.engine.retry → ∃ t, exec w s = .next t ∧ s.ring.FillingDamaged t.ring ∧
        s.Posted t .stall (some r.junction) (detailNat 2) (detailNat r.index))
    (s.engine.state = .requesting → counts .storeRetry false) ∧
    (s.engine.state = .requesting → s.engine.condemned = false →
      counts .storeEnd true ∧ counts .storeDisconnect true) ∧
    (s.engine.state = .receiving → s.engine.broken = false → s.engine.condemned = false →
      counts .storeRetry true ∧ counts .storeAbort true ∧
      (s.engine.expect ≠ r.first + r.count → counts .storeEnd true)) ∧
    (s.engine.state = .backoff →
      (s.engine.broken = false → exec .backoffExpiry s = .next (s.asking r r.first r.count)) ∧
      (s.engine.broken = true → s.AsksAgain r (exec .backoffExpiry s)))

/-- An ABORT in REQUESTING (R167, R169): a PRIMED junction with an alternate left switches to it, with its slots freed,
its fetch entry started again on the alternate's clip, and the alternate's campaign in its claim; one without ends
ABANDONED(PROMO_REFUSED); an on-air one stops fetching at the refused frame and is asked to release, which is only noted
when a release reason is set (R130). -/
def Obligations.StoreAbortActsOnJunction : Prop :=
  ∀ (s : State) (q : Request) (r : Junction), s.engine.state = .requesting →
    s.engine.request = some q → q.orphaned = false → s.junction? q.junction = some r →
    let n := q.junction
    (∀ a, r.state = .primed → r.promo = .primary → r.fields.alternate = some a →
      ∃ t, exec .storeAbort s = .next t ∧ s.SameAround t ∧
        t.junction? n = some { r with promo := .alternate } ∧
        (∀ (i : Nat) (v : RingSlot), t.ring.slots[i]? = some (some v) → v.junction = n →
          v.state = .filling ∧ v.index = 0 ∧ v.blocks = 0) ∧
        (∀ (i : Nat) (v : RingSlot), s.ring.slots[i]? = some (some v) → v.junction ≠ n → v.state ≠ .filling →
          t.ring.slots[i]? = some (some v)) ∧
        ((∃ e ∈ s.engine.entries, e.junction = n) → ∃ e ∈ t.engine.entries, e.junction = n) ∧
        (∀ e ∈ t.engine.entries, e.junction = n → e.clip = a.clip ∧
          e.needed = r.fields.rin + r.fields.hold + r.fields.rout ∧
          (e.fetchIndex = 0 ∨ e.fetchIndex = 1 ∧ ∃ p, t.engine.request = some p ∧ p.junction = n ∧ p.clip = a.clip ∧
            p.index = 0 ∧ p.first = 0 ∧ p.count = 135)) ∧
        (∀ k, s.claim? n .record = some k → t.claim? n .record = some { k with campaign := a.campaign }) ∧
        s.Posted t .promoSwitched (some n) (detailNat 2) (a.campaign.setWidth 24)) ∧
    (r.state = .primed → r.promo = .alternate ∨ r.fields.alternate = none →
      ∃ t, exec .storeAbort s = .next t ∧ s.SameAround t ∧ t.table = removeNumber n s.table ∧
        (∀ e ∈ t.engine.entries, e.junction ≠ n) ∧
        (∀ u, some u ∈ t.ring.slots → u.junction ≠ n) ∧
        s.Posted t .junctionEnd (some n) (detailBytes 4 4 0)
          (r.actualFirst.getD (r.fields.commitFrame s.lead))) ∧
    (r.state.isOnAir = true → s.sequencer.onAir = some n →
      ∃ t, exec .storeAbort s = .next t ∧ s.SameAround t ∧ t.table = s.table ∧
        (∀ e ∈ t.engine.entries, e.junction = n → e.needed ≤ q.index ∧ e.fetchIndex = e.needed) ∧
        (∀ (i : Nat) (v : RingSlot), t.ring.slots[i]? = some (some v) → v.junction = n → v.state ≠ .filling) ∧
        (s.sequencer.reason = none →
          t.sequencer = { s.sequencer with reason := some .promoRefused } ∧ t.reporting = s.reporting) ∧
        (s.sequencer.reason.isSome → t.sequencer = s.sequencer ∧
          s.Posted t .releaseNoted (some n) (detailNat 4) (detailNat s.sequencer.frameCounter)))

/-- An unanswered request halts the engine with FETCH_HALTED, and the slot of an orphaned one is freed (R168).
RESUME_FETCH sends the request again, gives a condemned frame up or drops an orphaned request, and outside HALTED is
refused (R170; a frame that lacks no block becomes READY, log 15). A request on the link that becomes orphaned goes on;
in BACKOFF it ends at once, and in HALTED its slot is freed at once. An orphaned request ends with END, DISCONNECT,
RETRY or ABORT (in a broken run with END or DISCONNECT): its slot is freed, nothing is asked again, and no record and no
event comes of it (R171). An IDLE engine begins the frame at the fetch index of its earliest entry with unfetched
frames, in the lowest FREE slot (R162, R172). -/
def Obligations.HaltAndResume : Prop :=
  (∀ (s : State) (q : Request), s.engine.request = some q →
    s.engine.state = .requesting ∨ s.engine.state = .receiving →
    ∃ t, exec .noAnswerLimit s = .next t ∧ s.SameAround t ∧
      t.engine = { s.engine with state := .halted } ∧ (q.orphaned = false → t.ring = s.ring) ∧
      (q.orphaned = true → t.ring = s.fillingFreed.ring) ∧
      (t.reporting.alarms.get .fetchHalted).flag = true ∧
      (t.reporting.alarms.get .fetchHalted).detail = some (q.junction.setWidth 24)) ∧
  (∀ (s : State) (p : List Byte) (crc : Half), s.Takes .resumeFetch p crc →
    (s.engine.state ≠ .halted → exec (.resumeFetch p crc) s = .next (s.replied .refusedState [])) ∧
    ∀ q, s.engine.state = .halted → s.engine.request = some q →
      let resumed := { (s.replied .accepted []) with engine := { s.engine with retry := 0 } }
      (q.orphaned = true → exec (.resumeFetch p crc) s = .next resumed.requestOver) ∧
      (q.orphaned = false → s.engine.condemned = false →
        resumed.AsksAgain q (exec (.resumeFetch p crc) s)) ∧
      (q.orphaned = false → s.engine.condemned = true → ∃ t, exec (.resumeFetch p crc) s = .next t ∧
        t.exchange = .replying { status := .accepted, payload := [] } ∧ s.ring.FillingDamaged t.ring ∧
        s.Posted t .stall (some q.junction) (detailNat 1) (detailNat q.index))) ∧
  (∀ (s : State) (q : Request), s.engine.request = some q → q.orphaned = false →
    let marked := { s with engine := { s.engine with request := some { q with orphaned := true } } }
    (s.engine.state = .requesting ∨ s.engine.state = .receiving → s.orphanRequest = marked) ∧
    (s.engine.state = .halted → s.orphanRequest = marked.fillingFreed) ∧
    (s.engine.state = .backoff → s.orphanRequest = { s.fillingFreed with
      engine := { s.engine with state := .idle, request := none, broken := false } })) ∧
  (∀ (s : State) (q : Request), s.engine.request = some q → q.orphaned = true →
    ∀ w ∈ [Instr.storeEnd, .storeDisconnect, .storeRetry, .storeAbort],
      (s.engine.state = .requesting → exec w s = .next s.fillingFreed.requestOver) ∧
      (s.engine.state = .receiving → s.engine.broken = false ∨ w = .storeEnd ∨ w = .storeDisconnect →
        exec w s = .next s.fillingFreed.requestOver)) ∧
  ∀ s : State,
    (∀ (e : FetchEntry) (i : Nat), s.engine.state = .idle →
      s.engine.entries.find? (fun e => decide (e.fetchIndex < e.needed)) = some e →
      s.ring.slots[i]? = some none → (∀ k, k < i → s.ring.slots[k]? ≠ some none) →
      s.beginFrame = { s with
        engine := { s.engine with
          state := .requesting, retry := 0, refetch := none, condemned := false, discarding := false,
          broken := false, expect := 0,
          request := some
            { junction := e.junction, clip := e.clip, index := e.fetchIndex, first := 0, count := 135,
              orphaned := false }
          entries := s.engine.entries.map
            (fun x => if x.junction = e.junction then { x with fetchIndex := x.fetchIndex + 1 } else x) }
        ring := { s.ring with
          slots := s.ring.slots.set i (some
            { state := .filling, junction := e.junction, index := e.fetchIndex, blocks := 0, data := [] })
          order := s.ring.order ++ [i] } }) ∧
    (s.engine.state ≠ .idle ∨ (∀ e ∈ s.engine.entries, e.needed ≤ e.fetchIndex) ∨
      (∀ i : Nat, s.ring.slots[i]? ≠ some none) → s.beginFrame = s)

/-- The Frame Ring keeps its form: D slots, and an order that lists each slot that is not FREE once (R172). The
premise on the Cue Bus Interface says that a part with a configuration is not UNCONFIGURED. -/
def Obligations.RingSoundKept : Prop :=
  ∀ s t : State, s.BusSound → s.RingSound → step s = .next t → t.RingSound

/-- The Frame Ring's advance (R174, R175). The next frame, when READY, becomes SHOWN and the slot that was SHOWN is
freed; a DAMAGED one is freed and dropped while the SHOWN slot stays; otherwise the advance slips. The sixth slip in a
row freezes the promo with its SHOWN slot, raises PROMO_FAILED, makes the junction's needed count the fetch index, so
that no further frame is begun, and asks for an early release. -/
def Obligations.RingAdvances : Prop :=
  ∀ (s : State) (b : Boundary) (x : StartContext) (n : JunctionNumber), s.ring.onAir = some n →
    let t := s.boundaryOp b x .ring
    let due := s.ring.find? (fun u => u.junction == n && u.index == s.ring.next)
    let isDue := fun (v : RingSlot) => v.junction = n ∧ v.index = s.ring.next
    (s.ring.frozen = true → t = s) ∧
    (s.ring.frozen = false → s.ring.fresh = true → t = { s with ring := { s.ring with fresh := false } }) ∧
    (s.ring.frozen = false → s.ring.fresh = false →
      (∀ u, due = some u → u.state = .ready → t.reporting = s.reporting ∧ t.ring.shown = s.ring.next ∧
        t.ring.next = s.ring.next + 1 ∧ t.ring.consecutive = 0 ∧ t.ring.slips = s.ring.slips ∧
        t.ring.drops = s.ring.drops ∧
        ∀ (i : Nat) (v : RingSlot), s.ring.slots[i]? = some (some v) →
          (v.state = .shown → t.ring.Freed i) ∧
          (v.state ≠ .shown → isDue v → t.ring.slots[i]? = some (some { v with state := .shown })) ∧
          (v.state ≠ .shown → ¬ isDue v → t.ring.slots[i]? = some (some v))) ∧
      (∀ u, due = some u → u.state = .damaged → t.reporting = s.reporting ∧ t.ring.shown = s.ring.shown ∧
        t.ring.next = s.ring.next + 1 ∧ t.ring.consecutive = 0 ∧ t.ring.slips = s.ring.slips ∧
        t.ring.drops = min (s.ring.drops + 1) 65535 ∧
        ∀ (i : Nat) (v : RingSlot), s.ring.slots[i]? = some (some v) →
          (isDue v → t.ring.Freed i) ∧ (¬ isDue v → t.ring.slots[i]? = some (some v))) ∧
      ((due = none ∨ ∃ u, due = some u ∧ u.state = .filling) → s.ring.consecutive < 5 →
        t = { s with ring := { s.ring with
          slips := min (s.ring.slips + 1) 65535, consecutive := s.ring.consecutive + 1 } }) ∧
      ((due = none ∨ ∃ u, due = some u ∧ u.state = .filling) → 5 ≤ s.ring.consecutive →
        t.ring.frozen = true ∧ t.ring.shown = s.ring.shown ∧ t.ring.next = s.ring.next ∧
        t.ring.slips = min (s.ring.slips + 1) 65535 ∧
        (∀ (i : Nat) (v : RingSlot), s.ring.slots[i]? = some (some v) → v.state = .shown →
          t.ring.slots[i]? = some (some v)) ∧
        (∀ e, s.engine.entries.find? (fun e => e.junction == n) = some e →
          ∀ e' ∈ t.engine.entries, e'.junction = n → e'.needed = min e.needed e.fetchIndex) ∧
        (t.reporting.alarms.get .promoFailed).flag = true ∧
        (t.reporting.alarms.get .promoFailed).detail = some (n.setWidth 24) ∧
        (s.sequencer.onAir = some n → s.sequencer.reason = none →
          t.sequencer = { s.sequencer with reason := some .promoFailure })))

/-! ### Chapter 6: markers -/

/-- LINE_EDGE_SETTLED (R101, R102, R106): the active edge of a START or RELEASE line takes a capture of the current
frame; at a record already valid it is discarded and MARKER_OVERWRITE is raised once; any other settled change takes
none, and an edge that settles at the level the line already has changes nothing (log 3). MARKER_PACKET (R103): a
packet with a correct check marks a judged frame as carrying a watched code; one whose check fails is disregarded, and
an in-band code of 0 is not watched (R100). The judgement of a frame (R103, R104): a count goes up, held at 3, for a
frame that carries its code and to 0 for one that does not, and from 2 to 3 takes a capture of the frame two before
it, or is discarded at a valid record (R106); a frame that began before the part was configured, or before HF was
valid, is not judged. -/
def Obligations.MarkersAreTaken : Prop :=
  (∀ (s : State) (i : Fin 4) (l : Level),
    (s.markerPins.get i = l → exec (.lineEdgeSettled i l) s = .next s) ∧
    (s.markerPins.get i ≠ l →
      let followed := { s with markerPins := s.markerPins.set i l }
      (s.config = none ∨ s.timing.hfValid = false → exec (.lineEdgeSettled i l) s = .next followed) ∧
      ∀ c, s.config = some c →
        (c.roles.get i = .unused ∨ l ≠ (c.edges.get i).level →
          exec (.lineEdgeSettled i l) s = .next followed) ∧
        ∀ rec, (c.roles.get i = .start ∧ rec = .start (lineSource i) ∨
            c.roles.get i = .release ∧ rec = .release) →
          l = (c.edges.get i).level → s.timing.hfValid = true →
          (s.markers.get rec = none → exec (.lineEdgeSettled i l) s = .next { followed with
            markers := s.markers.set rec (some
              { source := lineSource i, captureFrame := s.timing.hf, availability := s.timing.hf,
                overwrite := false }) }) ∧
          ∀ held, s.markers.get rec = some held →
            (held.overwrite = true → exec (.lineEdgeSettled i l) s = .next followed) ∧
            (held.overwrite = false → exec (.lineEdgeSettled i l) s = .next (({ followed with
              markers := s.markers.set rec (some { held with overwrite := true }) }).raiseAlarm
                .markerOverwrite (detailOf (lineSource i).code) none)))) ∧
  (∀ (s : State) (code check : Half),
    (s.config = none ∨ s.markers.judged = false ∨ check ≠ crc16 (halfBytes code) →
      exec (.markerPacket code check) s = .next s) ∧
    ∀ c, s.config = some c → s.markers.judged = true → check = crc16 (halfBytes code) →
      ∃ m, exec (.markerPacket code check) s = .next { s with markers := m } ∧
        m = { s.markers with startSeen := m.startSeen, releaseSeen := m.releaseSeen } ∧
        (m.startSeen = true ↔ s.markers.startSeen = true ∨ c.startCode ≠ 0 ∧ code = c.startCode) ∧
        (m.releaseSeen = true ↔ s.markers.releaseSeen = true ∨ c.releaseCode ≠ 0 ∧ code = c.releaseCode)) ∧
  (∀ (s : State) (ended : Frame),
    let m := s.markers
    let t := s.judgeFrame ended
    let takes := fun (count : Nat) (seen : Bool) => count = 2 ∧ seen = true
    let lost := fun (rec : CaptureRecord) (count : Nat) (seen : Bool) =>
      takes count seen ∧ ∃ held, m.get rec = some held ∧ held.overwrite = false
    let counted := fun (count : Nat) (seen : Bool) => if seen then min (count + 1) 3 else 0
    let captured := fun (rec : CaptureRecord) (count : Nat) (seen : Bool) =>
      (¬ takes count seen → t.markers.get rec = m.get rec) ∧
      (takes count seen → m.get rec = none → t.markers.get rec = some
        { source := .inBand, captureFrame := ended - 2, availability := ended, overwrite := false }) ∧
      ∀ held, takes count seen → m.get rec = some held → t.markers.get rec = some { held with overwrite := true }
    (m.judged = false → t = s) ∧
    (m.judged = true →
      t = { s with markers := t.markers, reporting := t.reporting } ∧
      t.markers.startCount = counted m.startCount m.startSeen ∧
      t.markers.releaseCount = counted m.releaseCount m.releaseSeen ∧
      captured (.start .inBand) m.startCount m.startSeen ∧ captured .release m.releaseCount m.releaseSeen ∧
      (∀ src, src ≠ .inBand → t.markers.get (.start src) = m.get (.start src)) ∧
      (¬ lost (.start .inBand) m.startCount m.startSeen → ¬ lost .release m.releaseCount m.releaseSeen →
        t.reporting = s.reporting) ∧
      (lost (.start .inBand) m.startCount m.startSeen ∨ lost .release m.releaseCount m.releaseSeen →
        (t.reporting.alarms.get .markerOverwrite).flag = true ∧
        (t.reporting.alarms.get .markerOverwrite).detail = some (detailNat 5)))) ∧
  ∀ s : State, s.beginFrameOfCodes = { s with markers := { s.markers with
    startSeen := false, releaseSeen := false, judged := s.config.isSome } }

/-- A start capture handed over is judged from the top of R110's table down: IGNORED with a junction on air or none
addressed, EARLY before the claim start, IGNORED after the latest start, USED within the window; the addressed junction
is the first record in table order that waits on the source. At a boundary the frame that ends is judged, and each valid
record is then handed over once, the release record first (R107), its frames moved by a time jump (R108): it becomes
invalid, a USED start is made with it (R118), a release is a request, or is noted at the junction's first frame (R111,
R131; log 19), and one MARKER event reports it (R112). That the events of the sequencer stand before that MARKER event
is the model's (log 16). -/
def Obligations.StartCaptureDisposition : Prop :=
  (∀ (s : State) (m : MarkerSource) (first : Frame),
    let waits := fun (y : Junction) =>
      y.state = .primed ∧ y.fields.trigger = .marked ∧ y.fields.source = some m
    (s.sequencer.onAir.isSome → s.judgeStart m first = (.ignored, none)) ∧
    (s.sequencer.onAir = none → s.addressed m = none → s.judgeStart m first = (.ignored, none)) ∧
    (s.addressed m = none ↔ ∀ y ∈ s.table, ¬ waits y) ∧
    ∀ r, s.sequencer.onAir = none → s.addressed m = some r →
      (∃ pre post, s.table = pre ++ r :: post ∧ waits r ∧ ∀ y ∈ pre, ¬ waits y) ∧
      (ahead r.fields.claimStart first = true → s.judgeStart m first = (.early, some r)) ∧
      (ahead r.fields.claimStart first = false → ahead first r.fields.latestStart = true →
        s.judgeStart m first = (.ignored, none)) ∧
      (ahead r.fields.claimStart first = false → ahead first r.fields.latestStart = false →
        s.judgeStart m first = (.used, some r))) ∧
  (∀ (s : State) (b : Boundary) (x : StartContext),
    s.boundaryOp b x .markers =
      [CaptureRecord.release, .start .mk0, .start .mk1, .start .mk2, .start .mk3, .start .inBand].foldl
        (fun t rec => t.handOver x b.jump rec) (s.judgeFrame b.ended).beginFrameOfCodes) ∧
  ∀ (s : State) (x : StartContext) (jump : Option (Frame × Frame)) (rec : CaptureRecord),
    (s.markers.get rec = none → s.handOver x jump rec = s) ∧
    ∀ held shift, s.markers.get rec = some held →
      (jump = none ∧ shift = 0 ∨ ∃ old new, jump = some (old, new) ∧ shift = new - old) →
      let first := held.availability + shift + 1
      let u := { s with markers := s.markers.set rec none }
      let report := fun (t : State) (record : Byte) (d : Byte) (n : Option JunctionNumber) =>
        t.post .marker n (detailBytes record held.source.code (d + if held.overwrite then 128 else 0))
          (held.captureFrame + shift)
      u.markers.get rec = none ∧ (∀ other, other ≠ rec → u.markers.get other = s.markers.get other) ∧
      (∀ m, rec = .start m →
        (∀ r, s.judgeStart m first = (.used, some r) →
          s.handOver x jump rec = report (u.takeStart x r first .marked) m.code 1 (some r.number)) ∧
        (∀ r, s.judgeStart m first = (.early, some r) → s.handOver x jump rec = report u m.code 2 (some r.number)) ∧
        (s.judgeStart m first = (.ignored, none) → s.handOver x jump rec = report u m.code 3 none)) ∧
      (rec = .release →
        (s.sequencer.onAir = none → s.handOver x jump rec = report u 6 3 none) ∧
        ∀ n, s.sequencer.onAir = some n →
          (s.sequencer.first ≠ some first → s.sequencer.reason = none → s.handOver x jump rec =
            report { u with sequencer := { s.sequencer with reason := some .releaseMarker } } 6 1 (some n)) ∧
          (s.sequencer.first = some first ∨ s.sequencer.reason.isSome → s.handOver x jump rec =
            report (u.post .releaseNoted (some n) (detailNat 1) (detailNat s.sequencer.frameCounter)) 6 1 (some n)))

/-! ### Chapters 7 and 8: the sequencer, the cue lines and the picture -/

/-- A start with clip frame 0 READY puts the junction on air with its actual hold, its claim ON_AIR over the actual run
and its frame 0 shown; without it the record ends ABANDONED(PROMO_NOT_READY) (R95, R122, R123, R124). The cue points of
offset 0 are applied, no more than Rin + A + Rout frames are needed, and the store's loads of a start (R146 to R148) and
JUNCTION_STARTED are made (their order among the events is log 16). The start tests of a boundary (R116, R117, R119 to
R121): a TIMED record starts at its Snom and a LATE_START one at its latest start, or ends ABANDONED(TIME_JUMP) with a
junction on air; an ABANDON one ends ABANDONED(MARKER_TIMEOUT) one frame after its latest start, when no junction was on
air after the advance (log 20). -/
def Obligations.StartPutsJunctionOnAir : Prop :=
  (∀ (s : State) (x : StartContext) (r : Junction) (first : Frame) (k : StartKind),
    s.junction? r.number = some r →
    let n := r.number
    let hold := if ahead first r.fields.snom = true then r.fields.hold - (first - r.fields.snom).toNat
      else r.fields.hold
    let cued := (r.fields.cues.filter (fun p => p.offset == 0)).foldl
      (fun q p => q.act (s.restLevel p.line) p.line p.action) s.sequencer
    let t := s.takeStart x r first k
    (s.ring.promoReady n = true →
      s.SameAround t ∧ t.compositor = .junction ∧
      t.sequencer = { s.sequencer with
        onAir := some n, phase := if r.fields.rin = 0 then .hold else .squeezeIn,
        first := some first, hold := some hold, frameCounter := 0,
        ramp := if r.fields.rin = 0 then 0 else 1, holdLeft := if r.fields.rin = 0 then hold else 0,
        releaseLeft := 0, reason := none, begun := false, fresh := x.beforeSequencer,
        lines := cued.lines, pulse := cued.pulse } ∧
      (∀ e ∈ t.engine.entries, e.junction = n → e.needed ≤ r.fields.rin + hold + r.fields.rout) ∧
      t.layouts = (s.startLayouts r).layouts ∧
      (x.storeFirst = true → t.reporting = ((s.startLayouts r).postAt first .junctionStarted (some n)
        (detailOf k.code) (detailNat hold)).reporting) ∧
      (x.storeFirst = false → t.reporting = ((s.postAt first .junctionStarted (some n) (detailOf k.code)
        (detailNat hold)).startLayouts r).reporting) ∧
      t.junction? n = some { r with
        state := if r.fields.rin = 0 then .hold else .squeezeIn, actualFirst := some first,
        actualHold := some hold } ∧
      t.ring.onAir = some n ∧ t.ring.shown = 0 ∧ t.ring.next = 1 ∧ t.ring.slips = 0 ∧ t.ring.drops = 0 ∧
      ∀ c, s.claim? n .record = some c → t.claim? n .record = some { c with
        cls := .onAir, start := first, settle := none,
        stop := first + BitVec.ofNat 24 (r.fields.rin + hold + r.fields.rout) }) ∧
    (s.ring.promoReady n = false → t.table = removeNumber n s.table ∧ t.sequencer = s.sequencer ∧
      s.Posted t .junctionEnd (some n) (detailBytes 4 9 0)
        (r.actualFirst.getD (r.fields.commitFrame s.lead)))) ∧
  ∀ (s : State) (x : StartContext) (idle : Bool) (r : Junction), s.junction? r.number = some r →
    let f := r.fields
    let latest := f.snom + BitVec.ofNat 24 f.hold - BitVec.ofNat 24 f.minHold
    let due := fun (k : StartKind) =>
      k = .timed ∧ f.trigger = .timed ∧ s.hf = f.snom ∨
      k = .lateStart ∧ f.trigger = .marked ∧ f.fallback = some .lateStart ∧ s.hf = latest
    let timeout := f.trigger = .marked ∧ f.fallback = some .abandon ∧ s.hf = latest + 1
    let t := s.testStart x idle r
    let abandoned := fun (reason : Byte) => s.SameAround t ∧ t.table = removeNumber r.number s.table ∧
      t.sequencer = s.sequencer ∧ s.Posted t .junctionEnd (some r.number) (detailBytes 4 reason 0)
        (r.actualFirst.getD (f.commitFrame s.lead))
    (∀ k, due k → s.sequencer.onAir = none → t = s.takeStart x r s.hf k) ∧
    (∀ k, due k → s.sequencer.onAir.isSome → abandoned 7) ∧
    (timeout → idle = true → abandoned 8) ∧
    ((∀ k, ¬ due k) → ¬ (timeout ∧ idle = true) → t = s)

/-- A release begins with Rout frames from HOLD and floor(p × Rout / Rin) from SQUEEZE_IN (R128, R129): with frames to
run, the phase and the record are RELEASE and RELEASE_BEGUN carries the reason and the count; with none, the junction
ends at once, after RELEASE_BEGUN. At the end of the on-air junction the lines rest, no junction is on air, the output
passes through, and the record leaves with the outcome that its release reason gives (R132, R133, R149). At a boundary
the sequencer advances and then tests each PRIMED record in table order (R116). A fresh start is left at j = 0. Else
the pulse returns are made, j goes up by 1, the cue points of the new j are applied (R134), and the phase steps: p up to
Rin, with the ramp-end notice there, and then HOLD with its counter at A (R125); the hold counter down, and at 0 the
ordinary release begins (R126); the release counter down, and at 0 the junction ends (R127); a reason that is set begins
the release instead (R128, R129). -/
def Obligations.ReleaseBeginsAndEnds : Prop :=
  (∀ (s : State) (r : Junction) (why : Reason), s.junction? r.number = some r →
    let left := if s.sequencer.phase = .squeezeIn then s.sequencer.ramp * r.fields.rout / r.fields.rin
      else r.fields.rout
    let t := s.beginRelease r why
    (s.sequencer.phase = .squeezeIn → s.sequencer.ramp = r.fields.rin → r.fields.rin ≠ 0 →
      left = r.fields.rout) ∧
    (left ≠ 0 →
      s.SameAround t ∧
      t.sequencer = { s.sequencer with
        phase := .release, begun := true, ramp := 0, holdLeft := 0, releaseLeft := left } ∧
      t.junction? r.number = some { r with state := .release } ∧
      s.Posted t .releaseBegun (some r.number) (detailOf why.code) (detailNat left) ∧
      ∀ c, why ≠ .ordinary → s.claim? r.number .record = some c →
        t.claim? r.number .record = some { c with stop := s.hf + BitVec.ofNat 24 left }) ∧
    (left = 0 → s.sequencer.onAir = some r.number → s.sequencer.reason = some why →
      s.SameAround t ∧ s.OffAir t ∧ t.table = removeNumber r.number s.table ∧
      (s.reporting.events.length < 30 → t.reporting.events.map (fun e => (e.kind, e.junction, e.code)) =
        s.reporting.events.map (fun e => (e.kind, e.junction, e.code)) ++
          [(.releaseBegun, some r.number, detailOf why.code),
           (.promoCounts, some r.number, detailNat s.ring.drops),
           (.junctionEnd, some r.number,
             if why = .ordinary then detailBytes 1 0 0 else detailBytes 2 why.code 0)]))) ∧
  (∀ (s : State) (r : Junction) (why : Reason), s.junction? r.number = some r →
    s.sequencer.onAir = some r.number → s.sequencer.reason = some why →
    let t := s.endOnAir
    s.SameAround t ∧ s.OffAir t ∧ t.table = removeNumber r.number s.table ∧
      (s.reporting.events.length < 31 → t.reporting.events.map (fun e => (e.kind, e.junction, e.code)) =
        s.reporting.events.map (fun e => (e.kind, e.junction, e.code)) ++
          [(.promoCounts, some r.number, detailNat s.ring.drops),
           (.junctionEnd, some r.number,
             if why = .ordinary then detailBytes 1 0 0 else detailBytes 2 why.code 0)])) ∧
  (∀ (s : State) (b : Boundary) (x : StartContext),
    let a := s.advance
    s.boundaryOp b x .sequencer = (a.table.filter (fun r => r.state == .primed)).foldl
      (fun t r => t.testStart { x with beforeSequencer := false } a.sequencer.onAir.isNone r) a ∧
    (s.sequencer.onAir = none → a = s) ∧
    (s.sequencer.onAir.isSome → s.sequencer.fresh = true →
      a = { s with sequencer := { s.sequencer with fresh := false } })) ∧
  ∀ (s : State) (r : Junction), s.sequencer.onAir = some r.number → s.sequencer.fresh = false →
    s.junction? r.number = some r →
    let j := s.sequencer.frameCounter + 1
    let q := (r.fields.cues.filter (fun p => p.offset == j)).foldl
      (fun q p => q.act (s.restLevel p.line) p.line p.action)
      { s.pulseReturns.sequencer with frameCounter := j }
    let u := fun (q : Sequencer) => { s with sequencer := q }
    (s.sequencer.phase = .squeezeIn → s.sequencer.reason = none →
      (s.sequencer.ramp + 1 < r.fields.rin → s.advance = u { q with ramp := s.sequencer.ramp + 1 }) ∧
      (s.sequencer.ramp + 1 = r.fields.rin →
        s.advance = (u { q with ramp := s.sequencer.ramp + 1 }).rampEndNotice r.number) ∧
      (r.fields.rin ≤ s.sequencer.ramp → s.advance = { s with
        sequencer := { q with phase := .hold, ramp := 0, holdLeft := s.sequencer.hold.getD 0 }
        table := s.table.map (fun y => if y.number = r.number then { y with state := .hold } else y) })) ∧
    (s.sequencer.phase = .hold → s.sequencer.reason = none →
      (1 < s.sequencer.holdLeft → s.advance = u { q with holdLeft := s.sequencer.holdLeft - 1 }) ∧
      (s.sequencer.holdLeft ≤ 1 →
        s.advance = (u { q with reason := some .ordinary }).beginRelease r .ordinary)) ∧
    (∀ why, s.sequencer.phase = .squeezeIn ∨ s.sequencer.phase = .hold → s.sequencer.reason = some why →
      s.advance = (u q).beginRelease r why) ∧
    (s.sequencer.phase = .release →
      (1 < s.sequencer.releaseLeft → s.advance = u { q with releaseLeft := s.sequencer.releaseLeft - 1 }) ∧
      (s.sequencer.releaseLeft ≤ 1 →
        s.advance = (u { q with releaseLeft := s.sequencer.releaseLeft - 1 }).endOnAir))

/-- A cue point's action on its line (R135): each first clears the pulse return, and PULSE sets it; SET and PULSE
drive the active level, CLEAR the rest level, TOGGLE the level the line is not at; the other lines stay. At the next
advance a line with its return set goes to rest, so that a SET after a PULSE holds and a PULSE after a SET returns. -/
def Obligations.CueActionsDriveLines : Prop :=
  (∀ (q : Sequencer) (rest : Level) (i : Fin 4) (a : CueAction),
    let t := q.act rest i a
    t = { q with lines := t.lines, pulse := t.pulse } ∧
    (∀ j, j ≠ i → t.lines.get j = q.lines.get j ∧ t.pulse.get j = q.pulse.get j) ∧
    (t.pulse.get i = true ↔ a = .pulse) ∧
    (a = .clear → t.lines.get i = rest) ∧
    (a = .setActive ∨ a = .pulse → t.lines.get i ≠ rest) ∧
    (a = .toggle → t.lines.get i ≠ q.lines.get i)) ∧
  (∀ (s : State) (i : Fin 4),
    (s.sequencer.pulse.get i = true → s.pulseReturns.sequencer.lines.get i = s.restLevel i) ∧
    (s.sequencer.pulse.get i = false →
      s.pulseReturns.sequencer.lines.get i = s.sequencer.lines.get i) ∧
    s.pulseReturns.sequencer.pulse.get i = false) ∧
  ∀ (s : State) (i : Fin 4) (j : Nat),
    let two := fun a b => ((s.applyCues j
      [{ offset := j, line := i, action := a }, { offset := j, line := i, action := b }]).pulseReturns
        ).sequencer.lines.get i
    two .pulse .setActive ≠ s.restLevel i ∧ two .setActive .pulse = s.restLevel i

/-- In a HOLD frame the credits window and the promo window are those of the active layout, and the opacity is 1
(R154). In pass-through every output position is the programme's (R151). In a junction frame a position has its under
value, the programme at its place in the credits window or the fill outside it, and where the promo window covers it the
blend of the promo, from its place in that window, over the under value, component by component (R152). With opacity 1
the promo alone is shown. Fill code 0 stands in for a missing programme or promo picture (R150, R156). -/
def Obligations.HoldFrameShowsLayout : Prop :=
  (∀ (s : State) (r : Junction), s.compositor = .junction → s.sequencer.phase = .hold →
    s.sequencer.onAir = some r.number → s.junction? r.number = some r →
    ∃ v, s.frameView = some v ∧ v.credits = s.layouts.activeLayout.credits ∧
      v.promo = s.layouts.activeLayout.promo ∧ v.num = v.den ∧ 0 < v.den) ∧
  ∀ (s : State) (picture : Option Picture) (u v : Nat),
    let programme := fun (col row : Nat) => (picture.map (fun p => p col row)).getD (fillPixel 0)
    let promo := fun (col row : Nat) => (((s.ring.slots.filterMap id).find?
      (fun t => t.state == .shown && s.ring.onAir == some t.junction)).map (fun t => t.pixel col row)).getD (fillPixel 0)
    let inside := fun (w : Window) => w.x ≤ u ∧ u < w.x + w.width ∧ w.y ≤ v ∧ v < w.y + w.height
    let mix := fun (n d p q : Nat) => (p * n + q * (d - n)) / d
    (s.compositor = .passThrough → s.outputPixel picture u v = programme u v) ∧
    ∀ (w : FrameView) (under : Pixel), s.frameView = some w →
      (inside w.credits ∧ under =
          programme ((u - w.credits.x) * 1920 / w.credits.width) ((v - w.credits.y) * 1080 / w.credits.height) ∨
        ¬ inside w.credits ∧ under = fillPixel w.fill) →
      let top := promo ((u - w.promo.x) * 1920 / w.promo.width) ((v - w.promo.y) * 1080 / w.promo.height)
      (¬ inside w.promo → s.outputPixel picture u v = under) ∧
      (inside w.promo → s.outputPixel picture u v =
        { luma := mix w.num w.den top.luma under.luma, cb := mix w.num w.den top.cb under.cb
          cr := mix w.num w.den top.cr under.cr }) ∧
      (inside w.promo → w.num = w.den → 0 < w.den → s.outputPixel picture u v = top)

/-- A window on its way between the full grid and a layout's window is at floor(full + (target − full) × n / d) in each
coordinate, over the whole expression, stays in the grid, and is the layout's window at n = d (R153, R155). A SQUEEZE_IN
frame is p / Rin of the way to the active layout and a RELEASE frame r / Rout, with the active layout's promo window and
fill and that opacity (R153, R155, R157). -/
def Obligations.RampedWindowStaysInGrid : Prop :=
  (∀ (w : Window) (n d : Nat), w.inGrid = true → n ≤ d → 0 < d →
    let v := w.fromFull n d
    let part := fun (full target : Nat) => ((full : Int) * d + ((target : Int) - full) * n) / d
    (v.x : Int) = part 0 w.x ∧ (v.y : Int) = part 0 w.y ∧ (v.width : Int) = part 1920 w.width ∧
      (v.height : Int) = part 1080 w.height ∧
    v.x + v.width ≤ 1920 ∧ v.y + v.height ≤ 1080 ∧ w.width ≤ v.width ∧ w.height ≤ v.height ∧
      v.x ≤ w.x ∧ v.y ≤ w.y ∧ (n = d → v = w)) ∧
  ∀ (s : State) (r : Junction), s.compositor = .junction → s.sequencer.onAir = some r.number →
    s.junction? r.number = some r →
    let l := s.layouts.activeLayout
    let shows := fun (n d : Nat) => s.frameView = some
      { credits := l.credits.fromFull n d, promo := l.promo, fill := l.fill, num := n, den := d }
    (s.sequencer.phase = .squeezeIn → shows s.sequencer.ramp r.fields.rin) ∧
    (s.sequencer.phase = .release → shows s.sequencer.releaseLeft r.fields.rout)
end

