-- ==== Sys2Proof/Laws/State.lean ====
section
/-! SUPPORT. What the named updates of State leave alone, field by field: each is true by rfl, so that no later
proof unfolds a record update. -/

namespace Sys2Proof.Machine

/-! ### State.updateJunction -/

@[simp] theorem State.updateJunction_timing (s : State) (n : JunctionNumber) (f : Junction → Junction) :
    (s.updateJunction n f).timing = s.timing := rfl
@[simp] theorem State.updateJunction_bus (s : State) (n : JunctionNumber) (f : Junction → Junction) :
    (s.updateJunction n f).bus = s.bus := rfl
@[simp] theorem State.updateJunction_mirror (s : State) (n : JunctionNumber) (f : Junction → Junction) :
    (s.updateJunction n f).mirror = s.mirror := rfl
@[simp] theorem State.updateJunction_publisher (s : State) (n : JunctionNumber) (f : Junction → Junction) :
    (s.updateJunction n f).publisher = s.publisher := rfl
@[simp] theorem State.updateJunction_markers (s : State) (n : JunctionNumber) (f : Junction → Junction) :
    (s.updateJunction n f).markers = s.markers := rfl
@[simp] theorem State.updateJunction_sequencer (s : State) (n : JunctionNumber) (f : Junction → Junction) :
    (s.updateJunction n f).sequencer = s.sequencer := rfl
@[simp] theorem State.updateJunction_layouts (s : State) (n : JunctionNumber) (f : Junction → Junction) :
    (s.updateJunction n f).layouts = s.layouts := rfl
@[simp] theorem State.updateJunction_compositor (s : State) (n : JunctionNumber) (f : Junction → Junction) :
    (s.updateJunction n f).compositor = s.compositor := rfl
@[simp] theorem State.updateJunction_engine (s : State) (n : JunctionNumber) (f : Junction → Junction) :
    (s.updateJunction n f).engine = s.engine := rfl
@[simp] theorem State.updateJunction_ring (s : State) (n : JunctionNumber) (f : Junction → Junction) :
    (s.updateJunction n f).ring = s.ring := rfl
@[simp] theorem State.updateJunction_config (s : State) (n : JunctionNumber) (f : Junction → Junction) :
    (s.updateJunction n f).config = s.config := rfl
@[simp] theorem State.updateJunction_exchange (s : State) (n : JunctionNumber) (f : Junction → Junction) :
    (s.updateJunction n f).exchange = s.exchange := rfl
@[simp] theorem State.updateJunction_reporting (s : State) (n : JunctionNumber) (f : Junction → Junction) :
    (s.updateJunction n f).reporting = s.reporting := rfl
@[simp] theorem State.updateJunction_markerPins (s : State) (n : JunctionNumber) (f : Junction → Junction) :
    (s.updateJunction n f).markerPins = s.markerPins := rfl
@[simp] theorem State.updateJunction_pending (s : State) (n : JunctionNumber) (f : Junction → Junction) :
    (s.updateJunction n f).pending = s.pending := rfl

/-! ### State.replaceJunction -/

@[simp] theorem State.replaceJunction_timing (s : State) (r : Junction) :
    (s.replaceJunction r).timing = s.timing := rfl
@[simp] theorem State.replaceJunction_bus (s : State) (r : Junction) :
    (s.replaceJunction r).bus = s.bus := rfl
@[simp] theorem State.replaceJunction_mirror (s : State) (r : Junction) :
    (s.replaceJunction r).mirror = s.mirror := rfl
@[simp] theorem State.replaceJunction_publisher (s : State) (r : Junction) :
    (s.replaceJunction r).publisher = s.publisher := rfl
@[simp] theorem State.replaceJunction_markers (s : State) (r : Junction) :
    (s.replaceJunction r).markers = s.markers := rfl
@[simp] theorem State.replaceJunction_sequencer (s : State) (r : Junction) :
    (s.replaceJunction r).sequencer = s.sequencer := rfl
@[simp] theorem State.replaceJunction_layouts (s : State) (r : Junction) :
    (s.replaceJunction r).layouts = s.layouts := rfl
@[simp] theorem State.replaceJunction_compositor (s : State) (r : Junction) :
    (s.replaceJunction r).compositor = s.compositor := rfl
@[simp] theorem State.replaceJunction_engine (s : State) (r : Junction) :
    (s.replaceJunction r).engine = s.engine := rfl
@[simp] theorem State.replaceJunction_ring (s : State) (r : Junction) :
    (s.replaceJunction r).ring = s.ring := rfl
@[simp] theorem State.replaceJunction_config (s : State) (r : Junction) :
    (s.replaceJunction r).config = s.config := rfl
@[simp] theorem State.replaceJunction_exchange (s : State) (r : Junction) :
    (s.replaceJunction r).exchange = s.exchange := rfl
@[simp] theorem State.replaceJunction_reporting (s : State) (r : Junction) :
    (s.replaceJunction r).reporting = s.reporting := rfl
@[simp] theorem State.replaceJunction_markerPins (s : State) (r : Junction) :
    (s.replaceJunction r).markerPins = s.markerPins := rfl
@[simp] theorem State.replaceJunction_pending (s : State) (r : Junction) :
    (s.replaceJunction r).pending = s.pending := rfl

/-! ### State.updateClaim -/

@[simp] theorem State.updateClaim_timing (s : State) (n : JunctionNumber) (role : ClaimRole) (f : OwnClaim → OwnClaim) :
    (s.updateClaim n role f).timing = s.timing := rfl
@[simp] theorem State.updateClaim_bus (s : State) (n : JunctionNumber) (role : ClaimRole) (f : OwnClaim → OwnClaim) :
    (s.updateClaim n role f).bus = s.bus := rfl
@[simp] theorem State.updateClaim_table (s : State) (n : JunctionNumber) (role : ClaimRole) (f : OwnClaim → OwnClaim) :
    (s.updateClaim n role f).table = s.table := rfl
@[simp] theorem State.updateClaim_mirror (s : State) (n : JunctionNumber) (role : ClaimRole) (f : OwnClaim → OwnClaim) :
    (s.updateClaim n role f).mirror = s.mirror := rfl
@[simp] theorem State.updateClaim_markers (s : State) (n : JunctionNumber) (role : ClaimRole) (f : OwnClaim → OwnClaim) :
    (s.updateClaim n role f).markers = s.markers := rfl
@[simp] theorem State.updateClaim_sequencer (s : State) (n : JunctionNumber) (role : ClaimRole) (f : OwnClaim → OwnClaim) :
    (s.updateClaim n role f).sequencer = s.sequencer := rfl
@[simp] theorem State.updateClaim_layouts (s : State) (n : JunctionNumber) (role : ClaimRole) (f : OwnClaim → OwnClaim) :
    (s.updateClaim n role f).layouts = s.layouts := rfl
@[simp] theorem State.updateClaim_compositor (s : State) (n : JunctionNumber) (role : ClaimRole) (f : OwnClaim → OwnClaim) :
    (s.updateClaim n role f).compositor = s.compositor := rfl
@[simp] theorem State.updateClaim_engine (s : State) (n : JunctionNumber) (role : ClaimRole) (f : OwnClaim → OwnClaim) :
    (s.updateClaim n role f).engine = s.engine := rfl
@[simp] theorem State.updateClaim_ring (s : State) (n : JunctionNumber) (role : ClaimRole) (f : OwnClaim → OwnClaim) :
    (s.updateClaim n role f).ring = s.ring := rfl
@[simp] theorem State.updateClaim_config (s : State) (n : JunctionNumber) (role : ClaimRole) (f : OwnClaim → OwnClaim) :
    (s.updateClaim n role f).config = s.config := rfl
@[simp] theorem State.updateClaim_exchange (s : State) (n : JunctionNumber) (role : ClaimRole) (f : OwnClaim → OwnClaim) :
    (s.updateClaim n role f).exchange = s.exchange := rfl
@[simp] theorem State.updateClaim_reporting (s : State) (n : JunctionNumber) (role : ClaimRole) (f : OwnClaim → OwnClaim) :
    (s.updateClaim n role f).reporting = s.reporting := rfl
@[simp] theorem State.updateClaim_markerPins (s : State) (n : JunctionNumber) (role : ClaimRole) (f : OwnClaim → OwnClaim) :
    (s.updateClaim n role f).markerPins = s.markerPins := rfl
@[simp] theorem State.updateClaim_pending (s : State) (n : JunctionNumber) (role : ClaimRole) (f : OwnClaim → OwnClaim) :
    (s.updateClaim n role f).pending = s.pending := rfl

/-! ### State.dropClaim -/

@[simp] theorem State.dropClaim_timing (s : State) (n : JunctionNumber) (role : ClaimRole) :
    (s.dropClaim n role).timing = s.timing := rfl
@[simp] theorem State.dropClaim_bus (s : State) (n : JunctionNumber) (role : ClaimRole) :
    (s.dropClaim n role).bus = s.bus := rfl
@[simp] theorem State.dropClaim_table (s : State) (n : JunctionNumber) (role : ClaimRole) :
    (s.dropClaim n role).table = s.table := rfl
@[simp] theorem State.dropClaim_mirror (s : State) (n : JunctionNumber) (role : ClaimRole) :
    (s.dropClaim n role).mirror = s.mirror := rfl
@[simp] theorem State.dropClaim_markers (s : State) (n : JunctionNumber) (role : ClaimRole) :
    (s.dropClaim n role).markers = s.markers := rfl
@[simp] theorem State.dropClaim_sequencer (s : State) (n : JunctionNumber) (role : ClaimRole) :
    (s.dropClaim n role).sequencer = s.sequencer := rfl
@[simp] theorem State.dropClaim_layouts (s : State) (n : JunctionNumber) (role : ClaimRole) :
    (s.dropClaim n role).layouts = s.layouts := rfl
@[simp] theorem State.dropClaim_compositor (s : State) (n : JunctionNumber) (role : ClaimRole) :
    (s.dropClaim n role).compositor = s.compositor := rfl
@[simp] theorem State.dropClaim_engine (s : State) (n : JunctionNumber) (role : ClaimRole) :
    (s.dropClaim n role).engine = s.engine := rfl
@[simp] theorem State.dropClaim_ring (s : State) (n : JunctionNumber) (role : ClaimRole) :
    (s.dropClaim n role).ring = s.ring := rfl
@[simp] theorem State.dropClaim_config (s : State) (n : JunctionNumber) (role : ClaimRole) :
    (s.dropClaim n role).config = s.config := rfl
@[simp] theorem State.dropClaim_exchange (s : State) (n : JunctionNumber) (role : ClaimRole) :
    (s.dropClaim n role).exchange = s.exchange := rfl
@[simp] theorem State.dropClaim_reporting (s : State) (n : JunctionNumber) (role : ClaimRole) :
    (s.dropClaim n role).reporting = s.reporting := rfl
@[simp] theorem State.dropClaim_markerPins (s : State) (n : JunctionNumber) (role : ClaimRole) :
    (s.dropClaim n role).markerPins = s.markerPins := rfl
@[simp] theorem State.dropClaim_pending (s : State) (n : JunctionNumber) (role : ClaimRole) :
    (s.dropClaim n role).pending = s.pending := rfl

/-! ### State.dropClaims -/

@[simp] theorem State.dropClaims_timing (s : State) (n : JunctionNumber) :
    (s.dropClaims n).timing = s.timing := rfl
@[simp] theorem State.dropClaims_bus (s : State) (n : JunctionNumber) :
    (s.dropClaims n).bus = s.bus := rfl
@[simp] theorem State.dropClaims_table (s : State) (n : JunctionNumber) :
    (s.dropClaims n).table = s.table := rfl
@[simp] theorem State.dropClaims_mirror (s : State) (n : JunctionNumber) :
    (s.dropClaims n).mirror = s.mirror := rfl
@[simp] theorem State.dropClaims_markers (s : State) (n : JunctionNumber) :
    (s.dropClaims n).markers = s.markers := rfl
@[simp] theorem State.dropClaims_sequencer (s : State) (n : JunctionNumber) :
    (s.dropClaims n).sequencer = s.sequencer := rfl
@[simp] theorem State.dropClaims_layouts (s : State) (n : JunctionNumber) :
    (s.dropClaims n).layouts = s.layouts := rfl
@[simp] theorem State.dropClaims_compositor (s : State) (n : JunctionNumber) :
    (s.dropClaims n).compositor = s.compositor := rfl
@[simp] theorem State.dropClaims_engine (s : State) (n : JunctionNumber) :
    (s.dropClaims n).engine = s.engine := rfl
@[simp] theorem State.dropClaims_ring (s : State) (n : JunctionNumber) :
    (s.dropClaims n).ring = s.ring := rfl
@[simp] theorem State.dropClaims_config (s : State) (n : JunctionNumber) :
    (s.dropClaims n).config = s.config := rfl
@[simp] theorem State.dropClaims_exchange (s : State) (n : JunctionNumber) :
    (s.dropClaims n).exchange = s.exchange := rfl
@[simp] theorem State.dropClaims_reporting (s : State) (n : JunctionNumber) :
    (s.dropClaims n).reporting = s.reporting := rfl
@[simp] theorem State.dropClaims_markerPins (s : State) (n : JunctionNumber) :
    (s.dropClaims n).markerPins = s.markerPins := rfl
@[simp] theorem State.dropClaims_pending (s : State) (n : JunctionNumber) :
    (s.dropClaims n).pending = s.pending := rfl

/-! ### State.addClaim -/

@[simp] theorem State.addClaim_timing (s : State) (c : OwnClaim) :
    (s.addClaim c).timing = s.timing := rfl
@[simp] theorem State.addClaim_bus (s : State) (c : OwnClaim) :
    (s.addClaim c).bus = s.bus := rfl
@[simp] theorem State.addClaim_table (s : State) (c : OwnClaim) :
    (s.addClaim c).table = s.table := rfl
@[simp] theorem State.addClaim_mirror (s : State) (c : OwnClaim) :
    (s.addClaim c).mirror = s.mirror := rfl
@[simp] theorem State.addClaim_markers (s : State) (c : OwnClaim) :
    (s.addClaim c).markers = s.markers := rfl
@[simp] theorem State.addClaim_sequencer (s : State) (c : OwnClaim) :
    (s.addClaim c).sequencer = s.sequencer := rfl
@[simp] theorem State.addClaim_layouts (s : State) (c : OwnClaim) :
    (s.addClaim c).layouts = s.layouts := rfl
@[simp] theorem State.addClaim_compositor (s : State) (c : OwnClaim) :
    (s.addClaim c).compositor = s.compositor := rfl
@[simp] theorem State.addClaim_engine (s : State) (c : OwnClaim) :
    (s.addClaim c).engine = s.engine := rfl
@[simp] theorem State.addClaim_ring (s : State) (c : OwnClaim) :
    (s.addClaim c).ring = s.ring := rfl
@[simp] theorem State.addClaim_config (s : State) (c : OwnClaim) :
    (s.addClaim c).config = s.config := rfl
@[simp] theorem State.addClaim_exchange (s : State) (c : OwnClaim) :
    (s.addClaim c).exchange = s.exchange := rfl
@[simp] theorem State.addClaim_reporting (s : State) (c : OwnClaim) :
    (s.addClaim c).reporting = s.reporting := rfl
@[simp] theorem State.addClaim_markerPins (s : State) (c : OwnClaim) :
    (s.addClaim c).markerPins = s.markerPins := rfl
@[simp] theorem State.addClaim_pending (s : State) (c : OwnClaim) :
    (s.addClaim c).pending = s.pending := rfl

/-! ### State.freeSlots -/

@[simp] theorem State.freeSlots_timing (s : State) (p : RingSlot → Bool) :
    (s.freeSlots p).timing = s.timing := rfl
@[simp] theorem State.freeSlots_bus (s : State) (p : RingSlot → Bool) :
    (s.freeSlots p).bus = s.bus := rfl
@[simp] theorem State.freeSlots_table (s : State) (p : RingSlot → Bool) :
    (s.freeSlots p).table = s.table := rfl
@[simp] theorem State.freeSlots_mirror (s : State) (p : RingSlot → Bool) :
    (s.freeSlots p).mirror = s.mirror := rfl
@[simp] theorem State.freeSlots_publisher (s : State) (p : RingSlot → Bool) :
    (s.freeSlots p).publisher = s.publisher := rfl
@[simp] theorem State.freeSlots_markers (s : State) (p : RingSlot → Bool) :
    (s.freeSlots p).markers = s.markers := rfl
@[simp] theorem State.freeSlots_sequencer (s : State) (p : RingSlot → Bool) :
    (s.freeSlots p).sequencer = s.sequencer := rfl
@[simp] theorem State.freeSlots_layouts (s : State) (p : RingSlot → Bool) :
    (s.freeSlots p).layouts = s.layouts := rfl
@[simp] theorem State.freeSlots_compositor (s : State) (p : RingSlot → Bool) :
    (s.freeSlots p).compositor = s.compositor := rfl
@[simp] theorem State.freeSlots_engine (s : State) (p : RingSlot → Bool) :
    (s.freeSlots p).engine = s.engine := rfl
@[simp] theorem State.freeSlots_config (s : State) (p : RingSlot → Bool) :
    (s.freeSlots p).config = s.config := rfl
@[simp] theorem State.freeSlots_exchange (s : State) (p : RingSlot → Bool) :
    (s.freeSlots p).exchange = s.exchange := rfl
@[simp] theorem State.freeSlots_reporting (s : State) (p : RingSlot → Bool) :
    (s.freeSlots p).reporting = s.reporting := rfl
@[simp] theorem State.freeSlots_markerPins (s : State) (p : RingSlot → Bool) :
    (s.freeSlots p).markerPins = s.markerPins := rfl
@[simp] theorem State.freeSlots_pending (s : State) (p : RingSlot → Bool) :
    (s.freeSlots p).pending = s.pending := rfl

/-! ### State.postAt -/

@[simp] theorem State.postAt_timing (s : State) (hf : Frame) (k : EventKind) (j : Option JunctionNumber) (c v : BitVec 24) :
    (s.postAt hf k j c v).timing = s.timing := rfl
@[simp] theorem State.postAt_bus (s : State) (hf : Frame) (k : EventKind) (j : Option JunctionNumber) (c v : BitVec 24) :
    (s.postAt hf k j c v).bus = s.bus := rfl
@[simp] theorem State.postAt_table (s : State) (hf : Frame) (k : EventKind) (j : Option JunctionNumber) (c v : BitVec 24) :
    (s.postAt hf k j c v).table = s.table := rfl
@[simp] theorem State.postAt_mirror (s : State) (hf : Frame) (k : EventKind) (j : Option JunctionNumber) (c v : BitVec 24) :
    (s.postAt hf k j c v).mirror = s.mirror := rfl
@[simp] theorem State.postAt_publisher (s : State) (hf : Frame) (k : EventKind) (j : Option JunctionNumber) (c v : BitVec 24) :
    (s.postAt hf k j c v).publisher = s.publisher := rfl
@[simp] theorem State.postAt_markers (s : State) (hf : Frame) (k : EventKind) (j : Option JunctionNumber) (c v : BitVec 24) :
    (s.postAt hf k j c v).markers = s.markers := rfl
@[simp] theorem State.postAt_sequencer (s : State) (hf : Frame) (k : EventKind) (j : Option JunctionNumber) (c v : BitVec 24) :
    (s.postAt hf k j c v).sequencer = s.sequencer := rfl
@[simp] theorem State.postAt_layouts (s : State) (hf : Frame) (k : EventKind) (j : Option JunctionNumber) (c v : BitVec 24) :
    (s.postAt hf k j c v).layouts = s.layouts := rfl
@[simp] theorem State.postAt_compositor (s : State) (hf : Frame) (k : EventKind) (j : Option JunctionNumber) (c v : BitVec 24) :
    (s.postAt hf k j c v).compositor = s.compositor := rfl
@[simp] theorem State.postAt_engine (s : State) (hf : Frame) (k : EventKind) (j : Option JunctionNumber) (c v : BitVec 24) :
    (s.postAt hf k j c v).engine = s.engine := rfl
@[simp] theorem State.postAt_ring (s : State) (hf : Frame) (k : EventKind) (j : Option JunctionNumber) (c v : BitVec 24) :
    (s.postAt hf k j c v).ring = s.ring := rfl
@[simp] theorem State.postAt_config (s : State) (hf : Frame) (k : EventKind) (j : Option JunctionNumber) (c v : BitVec 24) :
    (s.postAt hf k j c v).config = s.config := rfl
@[simp] theorem State.postAt_exchange (s : State) (hf : Frame) (k : EventKind) (j : Option JunctionNumber) (c v : BitVec 24) :
    (s.postAt hf k j c v).exchange = s.exchange := rfl
@[simp] theorem State.postAt_markerPins (s : State) (hf : Frame) (k : EventKind) (j : Option JunctionNumber) (c v : BitVec 24) :
    (s.postAt hf k j c v).markerPins = s.markerPins := rfl
@[simp] theorem State.postAt_pending (s : State) (hf : Frame) (k : EventKind) (j : Option JunctionNumber) (c v : BitVec 24) :
    (s.postAt hf k j c v).pending = s.pending := rfl

/-! ### State.post -/

@[simp] theorem State.post_timing (s : State) (k : EventKind) (j : Option JunctionNumber) (c v : BitVec 24) :
    (s.post k j c v).timing = s.timing := rfl
@[simp] theorem State.post_bus (s : State) (k : EventKind) (j : Option JunctionNumber) (c v : BitVec 24) :
    (s.post k j c v).bus = s.bus := rfl
@[simp] theorem State.post_table (s : State) (k : EventKind) (j : Option JunctionNumber) (c v : BitVec 24) :
    (s.post k j c v).table = s.table := rfl
@[simp] theorem State.post_mirror (s : State) (k : EventKind) (j : Option JunctionNumber) (c v : BitVec 24) :
    (s.post k j c v).mirror = s.mirror := rfl
@[simp] theorem State.post_publisher (s : State) (k : EventKind) (j : Option JunctionNumber) (c v : BitVec 24) :
    (s.post k j c v).publisher = s.publisher := rfl
@[simp] theorem State.post_markers (s : State) (k : EventKind) (j : Option JunctionNumber) (c v : BitVec 24) :
    (s.post k j c v).markers = s.markers := rfl
@[simp] theorem State.post_sequencer (s : State) (k : EventKind) (j : Option JunctionNumber) (c v : BitVec 24) :
    (s.post k j c v).sequencer = s.sequencer := rfl
@[simp] theorem State.post_layouts (s : State) (k : EventKind) (j : Option JunctionNumber) (c v : BitVec 24) :
    (s.post k j c v).layouts = s.layouts := rfl
@[simp] theorem State.post_compositor (s : State) (k : EventKind) (j : Option JunctionNumber) (c v : BitVec 24) :
    (s.post k j c v).compositor = s.compositor := rfl
@[simp] theorem State.post_engine (s : State) (k : EventKind) (j : Option JunctionNumber) (c v : BitVec 24) :
    (s.post k j c v).engine = s.engine := rfl
@[simp] theorem State.post_ring (s : State) (k : EventKind) (j : Option JunctionNumber) (c v : BitVec 24) :
    (s.post k j c v).ring = s.ring := rfl
@[simp] theorem State.post_config (s : State) (k : EventKind) (j : Option JunctionNumber) (c v : BitVec 24) :
    (s.post k j c v).config = s.config := rfl
@[simp] theorem State.post_exchange (s : State) (k : EventKind) (j : Option JunctionNumber) (c v : BitVec 24) :
    (s.post k j c v).exchange = s.exchange := rfl
@[simp] theorem State.post_markerPins (s : State) (k : EventKind) (j : Option JunctionNumber) (c v : BitVec 24) :
    (s.post k j c v).markerPins = s.markerPins := rfl
@[simp] theorem State.post_pending (s : State) (k : EventKind) (j : Option JunctionNumber) (c v : BitVec 24) :
    (s.post k j c v).pending = s.pending := rfl

/-! ### State.raiseAlarm -/

@[simp] theorem State.raiseAlarm_timing (s : State) (a : AlarmName) (d : BitVec 24) (j : Option JunctionNumber) :
    (s.raiseAlarm a d j).timing = s.timing := rfl
@[simp] theorem State.raiseAlarm_bus (s : State) (a : AlarmName) (d : BitVec 24) (j : Option JunctionNumber) :
    (s.raiseAlarm a d j).bus = s.bus := rfl
@[simp] theorem State.raiseAlarm_table (s : State) (a : AlarmName) (d : BitVec 24) (j : Option JunctionNumber) :
    (s.raiseAlarm a d j).table = s.table := rfl
@[simp] theorem State.raiseAlarm_mirror (s : State) (a : AlarmName) (d : BitVec 24) (j : Option JunctionNumber) :
    (s.raiseAlarm a d j).mirror = s.mirror := rfl
@[simp] theorem State.raiseAlarm_publisher (s : State) (a : AlarmName) (d : BitVec 24) (j : Option JunctionNumber) :
    (s.raiseAlarm a d j).publisher = s.publisher := rfl
@[simp] theorem State.raiseAlarm_markers (s : State) (a : AlarmName) (d : BitVec 24) (j : Option JunctionNumber) :
    (s.raiseAlarm a d j).markers = s.markers := rfl
@[simp] theorem State.raiseAlarm_sequencer (s : State) (a : AlarmName) (d : BitVec 24) (j : Option JunctionNumber) :
    (s.raiseAlarm a d j).sequencer = s.sequencer := rfl
@[simp] theorem State.raiseAlarm_layouts (s : State) (a : AlarmName) (d : BitVec 24) (j : Option JunctionNumber) :
    (s.raiseAlarm a d j).layouts = s.layouts := rfl
@[simp] theorem State.raiseAlarm_compositor (s : State) (a : AlarmName) (d : BitVec 24) (j : Option JunctionNumber) :
    (s.raiseAlarm a d j).compositor = s.compositor := rfl
@[simp] theorem State.raiseAlarm_engine (s : State) (a : AlarmName) (d : BitVec 24) (j : Option JunctionNumber) :
    (s.raiseAlarm a d j).engine = s.engine := rfl
@[simp] theorem State.raiseAlarm_ring (s : State) (a : AlarmName) (d : BitVec 24) (j : Option JunctionNumber) :
    (s.raiseAlarm a d j).ring = s.ring := rfl
@[simp] theorem State.raiseAlarm_config (s : State) (a : AlarmName) (d : BitVec 24) (j : Option JunctionNumber) :
    (s.raiseAlarm a d j).config = s.config := rfl
@[simp] theorem State.raiseAlarm_exchange (s : State) (a : AlarmName) (d : BitVec 24) (j : Option JunctionNumber) :
    (s.raiseAlarm a d j).exchange = s.exchange := rfl
@[simp] theorem State.raiseAlarm_markerPins (s : State) (a : AlarmName) (d : BitVec 24) (j : Option JunctionNumber) :
    (s.raiseAlarm a d j).markerPins = s.markerPins := rfl
@[simp] theorem State.raiseAlarm_pending (s : State) (a : AlarmName) (d : BitVec 24) (j : Option JunctionNumber) :
    (s.raiseAlarm a d j).pending = s.pending := rfl

/-! ### State.raiseForJunction -/

@[simp] theorem State.raiseForJunction_timing (s : State) (a : AlarmName) (j : JunctionNumber) :
    (s.raiseForJunction a j).timing = s.timing := rfl
@[simp] theorem State.raiseForJunction_bus (s : State) (a : AlarmName) (j : JunctionNumber) :
    (s.raiseForJunction a j).bus = s.bus := rfl
@[simp] theorem State.raiseForJunction_table (s : State) (a : AlarmName) (j : JunctionNumber) :
    (s.raiseForJunction a j).table = s.table := rfl
@[simp] theorem State.raiseForJunction_mirror (s : State) (a : AlarmName) (j : JunctionNumber) :
    (s.raiseForJunction a j).mirror = s.mirror := rfl
@[simp] theorem State.raiseForJunction_publisher (s : State) (a : AlarmName) (j : JunctionNumber) :
    (s.raiseForJunction a j).publisher = s.publisher := rfl
@[simp] theorem State.raiseForJunction_markers (s : State) (a : AlarmName) (j : JunctionNumber) :
    (s.raiseForJunction a j).markers = s.markers := rfl
@[simp] theorem State.raiseForJunction_sequencer (s : State) (a : AlarmName) (j : JunctionNumber) :
    (s.raiseForJunction a j).sequencer = s.sequencer := rfl
@[simp] theorem State.raiseForJunction_layouts (s : State) (a : AlarmName) (j : JunctionNumber) :
    (s.raiseForJunction a j).layouts = s.layouts := rfl
@[simp] theorem State.raiseForJunction_compositor (s : State) (a : AlarmName) (j : JunctionNumber) :
    (s.raiseForJunction a j).compositor = s.compositor := rfl
@[simp] theorem State.raiseForJunction_engine (s : State) (a : AlarmName) (j : JunctionNumber) :
    (s.raiseForJunction a j).engine = s.engine := rfl
@[simp] theorem State.raiseForJunction_ring (s : State) (a : AlarmName) (j : JunctionNumber) :
    (s.raiseForJunction a j).ring = s.ring := rfl
@[simp] theorem State.raiseForJunction_config (s : State) (a : AlarmName) (j : JunctionNumber) :
    (s.raiseForJunction a j).config = s.config := rfl
@[simp] theorem State.raiseForJunction_exchange (s : State) (a : AlarmName) (j : JunctionNumber) :
    (s.raiseForJunction a j).exchange = s.exchange := rfl
@[simp] theorem State.raiseForJunction_markerPins (s : State) (a : AlarmName) (j : JunctionNumber) :
    (s.raiseForJunction a j).markerPins = s.markerPins := rfl
@[simp] theorem State.raiseForJunction_pending (s : State) (a : AlarmName) (j : JunctionNumber) :
    (s.raiseForJunction a j).pending = s.pending := rfl

/-! ### The fields that the updates change -/

@[simp] theorem State.updateJunction_table (s : State) (n : JunctionNumber) (f : Junction → Junction) :
    (s.updateJunction n f).table = s.table.map (fun r => if r.number == n then f r else r) := rfl
@[simp] theorem State.replaceJunction_table (s : State) (r : Junction) :
    (s.replaceJunction r).table = insertByStart r (removeNumber r.number s.table) := rfl
@[simp] theorem State.freeSlots_ring (s : State) (p : RingSlot → Bool) :
    (s.freeSlots p).ring = s.ring.free p := rfl
@[simp] theorem State.postAt_reporting (s : State) (hf : Frame) (k : EventKind)
    (j : Option JunctionNumber) (c v : BitVec 24) :
    (s.postAt hf k j c v).reporting = s.reporting.post hf k j c v := rfl
@[simp] theorem State.post_reporting (s : State) (k : EventKind) (j : Option JunctionNumber)
    (c v : BitVec 24) : (s.post k j c v).reporting = s.reporting.post s.hf k j c v := rfl
@[simp] theorem State.addClaim_claims (s : State) (c : OwnClaim) :
    (s.addClaim c).publisher.claims = s.publisher.claims ++ [c] := rfl

/-! ### Four like lines -/

theorem Four_get_set {α : Type} (f : Four α) (i j : Fin 4) (a : α) :
    (f.set i a).get j = if j = i then a else f.get j := by
  match i, j with
  | 0, 0 => rfl
  | 0, 1 => rfl
  | 0, 2 => rfl
  | 0, 3 => rfl
  | 1, 0 => rfl
  | 1, 1 => rfl
  | 1, 2 => rfl
  | 1, 3 => rfl
  | 2, 0 => rfl
  | 2, 1 => rfl
  | 2, 2 => rfl
  | 2, 3 => rfl
  | 3, 0 => rfl
  | 3, 1 => rfl
  | 3, 2 => rfl
  | 3, 3 => rfl

end Sys2Proof.Machine
end

