-- ==== Sys2Proof/Laws/Relations.lean ====
section
/-! SUPPORT. What one operation can do to each shared table, as relations between a state and a later one: to the
event queue and the alarms (`Reports`), to the Junction Table (`Descends`), to the Frame Ring (`RingStep`), and to
the whole state (`Works`, `Acts`). -/

namespace Sys2Proof.Machine

/-! ### The event queue and the alarms -/

/-- `r'` comes from `r` by posting events and raising alarms alone. -/
inductive Reports : Reporting → Reporting → Prop where
  | refl (r : Reporting) : Reports r r
  | post {r r' : Reporting} (h : Reports r r') (hf : Frame) (k : EventKind) (j : Option JunctionNumber)
      (c v : BitVec 24) : Reports r (r'.post hf k j c v)
  | raise {r r' : Reporting} (h : Reports r r') (n : AlarmName) (d : BitVec 24) :
      Reports r (r'.raise n d)

theorem Reports.trans {a b c : Reporting} (h : Reports a b) (g : Reports b c) : Reports a c := by
  induction g with
  | refl => exact h
  | post _ hf k j c v ih => exact ih.post hf k j c v
  | raise _ n d ih => exact ih.raise n d

/-! ### The order of the Junction Table (R38) -/

theorem mem_insertByStart {r x : Junction} {t : List Junction} :
    x ∈ insertByStart r t ↔ x = r ∨ x ∈ t := by
  induction t with
  | nil => simp [insertByStart]
  | cons y ys ih =>
    unfold insertByStart
    split
    · simp
    · simp only [List.mem_cons, ih]; tauto

/-- Within half the circle of frame values, ahead is the order of the distances from the base. -/
theorem ahead_eq_false_iff {base a b : Frame} (ha : (a - base).toNat < 8388608) (hb : (b - base).toNat < 8388608) :
    ahead a b = false ↔ (a - base).toNat ≤ (b - base).toNat := by
  simp only [ahead, Bool.and_eq_false_iff, decide_eq_false_iff_not, BitVec.toNat_sub] at *
  have := a.isLt
  have := b.isLt
  have := base.isLt
  omega

theorem StartsTogether.of_origin {t t' : List Junction} (h : StartsTogether t)
    (o : ∀ b ∈ t', ∃ a ∈ t, ∀ f ∈ b.occupied, f ∈ a.occupied) : StartsTogether t' := by
  obtain ⟨base, hb⟩ := h
  exact ⟨base, fun b m f hf => by
    obtain ⟨a, ha, ho⟩ := o b m
    exact hb a ha f (ho f hf)⟩

theorem InOrder.filter {t : List Junction} (h : InOrder t) (p : Junction → Bool) : InOrder (t.filter p) :=
  List.Pairwise.filter p h

/-- A record that takes its place among records in order leaves them in order, when R1 orders all of them. -/
theorem InOrder.insertByStart {r : Junction} {t : List Junction} (h : InOrder t) (w : StartsTogether (r :: t)) :
    InOrder (insertByStart r t) := by
  obtain ⟨base, hb⟩ := w
  have near : ∀ a ∈ r :: t, (a.fields.claimStart - base).toNat < 8388608 :=
    fun a m => hb a m a.fields (by simp [Junction.occupied])
  clear hb
  induction t with
  | nil => simp [Machine.insertByStart, InOrder]
  | cons y ys ih =>
    have hy := List.pairwise_cons.mp h
    have nr := near r (by simp)
    have ny := near y (by simp)
    have ih := ih hy.2 (fun a m => near a (by simp only [List.mem_cons] at m ⊢; tauto))
    unfold Machine.insertByStart
    split
    · next hr =>
      refine List.pairwise_cons.mpr ⟨fun z hz => ?_, h⟩
      have hry : (r.fields.claimStart - base).toNat ≤ (y.fields.claimStart - base).toNat := by
        by_contra hc
        rw [behind, ← Bool.not_eq_false] at hr
        exact hr ((ahead_eq_false_iff ny nr).mpr (by omega))
      rcases List.mem_cons.mp hz with rfl | hz
      · exact (ahead_eq_false_iff nr ny).mpr hry
      · have nz := near z (by simp [hz])
        have := (ahead_eq_false_iff ny nz).mp (hy.1 z hz)
        exact (ahead_eq_false_iff nr nz).mpr (by omega)
    · next hr =>
      refine List.pairwise_cons.mpr ⟨fun z hz => ?_, ih⟩
      rcases mem_insertByStart.mp hz with rfl | hz
      · simpa [behind] using hr
      · exact hy.1 z hz

/-! ### The Junction Table -/

/-- Every record of `t'` comes from a record of `t` with its number and occupies no interval that that record
did not occupy; no number is new, and none is doubled; records in order stay in order, when R1 orders them. -/
structure Descends (t t' : List Junction) : Prop where
  numbers : (t'.map (·.number)).Subperm (t.map (·.number))
  origin : ∀ b ∈ t', ∃ a ∈ t, b.number = a.number ∧ ∀ f ∈ b.occupied, f ∈ a.occupied
  order : StartsTogether t → InOrder t → InOrder t'

theorem Descends.together {t t' : List Junction} (h : Descends t t') (w : StartsTogether t) : StartsTogether t' :=
  w.of_origin (fun b m => (h.origin b m).imp (fun _ ⟨ha, _, ho⟩ => ⟨ha, ho⟩))

theorem Descends.refl (t : List Junction) : Descends t t :=
  ⟨List.Subperm.refl _, fun b hb => ⟨b, hb, rfl, fun _ h => h⟩, fun _ h => h⟩

theorem Descends.trans {a b c : List Junction} (h : Descends a b) (g : Descends b c) : Descends a c :=
  ⟨g.numbers.trans h.numbers, fun x hx => by
    obtain ⟨y, hy, e1, s1⟩ := g.origin x hx
    obtain ⟨z, hz, e2, s2⟩ := h.origin y hy
    exact ⟨z, hz, e1.trans e2, fun f hf => s2 f (s1 f hf)⟩, fun w o => g.order (h.together w) (h.order w o)⟩

/-- A change of records in their places that keeps their numbers and fields and adds no interval. -/
theorem Descends.map (t : List Junction) (f : Junction → Junction) (hn : ∀ r, (f r).number = r.number)
    (ho : ∀ r, ∀ x ∈ (f r).occupied, x ∈ r.occupied) (hf : ∀ r, (f r).fields = r.fields) :
    Descends t (t.map f) := by
  refine ⟨?_, ?_, fun _ h => List.pairwise_map.mpr (List.Pairwise.imp (fun hab => by rwa [hf, hf]) h)⟩
  · have : (t.map f).map (·.number) = t.map (·.number) := by
      rw [List.map_map]; exact List.map_congr_left (fun r _ => hn r)
    rw [this]
  · intro b hb
    obtain ⟨a, ha, rfl⟩ := List.mem_map.mp hb
    exact ⟨a, ha, hn a, ho a⟩

/-- Some records leave. -/
theorem Descends.filter (t : List Junction) (p : Junction → Bool) : Descends t (t.filter p) :=
  ⟨(List.filter_sublist.map _).subperm, fun b hb => ⟨b, (List.mem_filter.mp hb).1, rfl, fun _ h => h⟩,
    fun _ h => h.filter p⟩

theorem insertByStart_perm (r : Junction) (t : List Junction) : (insertByStart r t).Perm (r :: t) := by
  induction t with
  | nil => exact List.Perm.refl _
  | cons y ys ih =>
    unfold insertByStart
    split
    · exact List.Perm.refl _
    · exact (ih.cons y).trans (List.Perm.swap r y ys)

theorem insertByStart_length (r : Junction) (t : List Junction) :
    (insertByStart r t).length = t.length + 1 := by
  rw [(insertByStart_perm r t).length_eq]; rfl

/-- Records with one number give way to one with that number. -/
theorem numbers_replace {n : JunctionNumber} {t : List Junction} (h : ∃ a ∈ t, a.number = n) :
    ((n :: (removeNumber n t).map (·.number))).Subperm (t.map (·.number)) := by
  induction t with
  | nil => simp at h
  | cons y ys ih =>
    by_cases hy : y.number = n
    · have hf : removeNumber n (y :: ys) = removeNumber n ys := by simp [removeNumber, hy]
      rw [hf, List.map_cons, hy]
      exact (List.subperm_cons n).mpr ((List.filter_sublist.map _).subperm)
    · have hf : removeNumber n (y :: ys) = y :: removeNumber n ys := by simp [removeNumber, hy]
      obtain ⟨a, ha, hn⟩ := h
      have ha' : a ∈ ys := by
        rcases List.mem_cons.mp ha with e | e
        · exact absurd (e ▸ hn) hy
        · exact e
      rw [hf, List.map_cons, List.map_cons]
      exact ((List.Perm.swap _ _ _).subperm).trans ((List.subperm_cons _).mpr (ih ⟨a, ha', hn⟩))

/-- A record takes its place with fields that its table's record of that number occupies already. -/
theorem Descends.replace {t : List Junction} {r a : Junction} (ha : a ∈ t) (hn : r.number = a.number)
    (ho : ∀ x ∈ r.occupied, x ∈ a.occupied) :
    Descends t (insertByStart r (removeNumber r.number t)) := by
  refine ⟨?_, ?_, fun w h => InOrder.insertByStart (h.filter _) (w.of_origin fun b m => ?_)⟩
  · refine ((insertByStart_perm _ _).map _).subperm.trans ?_
    exact numbers_replace ⟨a, ha, hn.symm⟩
  · intro b hb
    rcases mem_insertByStart.mp hb with rfl | hb
    · exact ⟨a, ha, hn, ho⟩
    · exact ⟨b, (List.mem_filter.mp hb).1, rfl, fun _ h => h⟩
  · rcases List.mem_cons.mp m with rfl | m
    · exact ⟨a, ha, ho⟩
    · exact ⟨b, (List.mem_filter.mp m).1, fun _ h => h⟩

/-! ### The Frame Ring -/

/-- The ring keeps its slots, and its order keeps listing those that are not FREE. -/
structure RingStep (r r' : Ring) : Prop where
  slots : r'.slots.length = r.slots.length
  sound : r.Sound → r'.Sound

theorem RingStep.refl (r : Ring) : RingStep r r := ⟨rfl, id⟩

theorem RingStep.trans {a b c : Ring} (h : RingStep a b) (g : RingStep b c) : RingStep a c :=
  ⟨g.slots.trans h.slots, fun x => g.sound (h.sound x)⟩

/-- Slots and order are all that the ring's soundness reads. -/
theorem RingStep.of_eq {r r' : Ring} (hs : r'.slots = r.slots) (ho : r'.order = r.order) :
    RingStep r r' :=
  ⟨by rw [hs], fun h => ⟨by rw [ho]; exact h.once, by rw [ho, hs]; exact h.listed⟩⟩

theorem getD_isSome_iff {α : Type} (l : List (Option α)) (i : Nat) :
    (l.getD i none).isSome = true ↔ ∃ t, l[i]? = some (some t) := by
  rw [List.getD_eq_getElem?_getD]
  cases h : l[i]? with
  | none => simp
  | some o => cases o <;> simp

theorem RingStep.free (r : Ring) (p : RingSlot → Bool) : RingStep r (r.free p) := by
  constructor
  · simp [Ring.free]
  · intro h
    constructor
    · exact h.once.filter _
    · intro i
      simp only [Ring.free, List.mem_filter]
      rw [getD_isSome_iff, h.listed]
      constructor
      · exact fun x => x.2
      · rintro ⟨t, ht⟩
        refine ⟨?_, t, ht⟩
        rw [List.getElem?_map] at ht
        cases hi : r.slots[i]? with
        | none => simp [hi] at ht
        | some o =>
          cases o with
          | none => simp [hi] at ht
          | some u => exact ⟨u, rfl⟩

theorem RingStep.update (r : Ring) (p : RingSlot → Bool) (f : RingSlot → RingSlot) :
    RingStep r (r.update p f) := by
  constructor
  · simp [Ring.update]
  · intro h
    constructor
    · exact h.once
    · intro i
      simp only [Ring.update]
      rw [h.listed, List.getElem?_map]
      cases hi : r.slots[i]? with
      | none => simp
      | some o => cases o <;> simp

/-- The lowest FREE slot is a slot, and it is FREE. -/
theorem lowestFree_spec {l : List (Option RingSlot)} {k i : Nat} (h : lowestFree l k = some i) :
    k ≤ i ∧ l[i - k]? = some none := by
  induction l generalizing k with
  | nil => simp [lowestFree] at h
  | cons o l ih =>
    cases o with
    | none => simp only [lowestFree, Option.some.injEq] at h; subst h; simp
    | some t =>
      simp only [lowestFree] at h
      obtain ⟨h1, h2⟩ := ih h
      refine ⟨by omega, ?_⟩
      have : i - k = (i - (k + 1)) + 1 := by omega
      rw [this, List.getElem?_cons_succ]; exact h2

theorem RingStep.take {r : Ring} {i : Nat} (h : lowestFree r.slots 0 = some i) (j : JunctionNumber)
    (n : Nat) : RingStep r (r.take i j n) := by
  obtain ⟨-, hi⟩ := lowestFree_spec h
  rw [Nat.sub_zero] at hi
  have hlt : i < r.slots.length := by
    by_contra hc
    rw [List.getElem?_eq_none (by omega)] at hi
    cases hi
  constructor
  · simp [Ring.take]
  · intro hs
    constructor
    · simp only [Ring.take]
      rw [List.nodup_append]
      refine ⟨hs.once, by simp, ?_⟩
      intro a ha b hb
      rw [List.mem_singleton] at hb
      subst hb
      rintro rfl
      obtain ⟨t, ht⟩ := (hs.listed a).mp ha
      rw [hi] at ht; cases ht
    · intro k
      simp only [Ring.take, List.mem_append, List.mem_singleton]
      rw [List.getElem?_set]
      by_cases hk : i = k
      · subst hk; simp [hlt]
      · simp only [hk, if_false]
        rw [hs.listed]
        constructor
        · rintro (h | h)
          · exact h
          · exact absurd h.symm hk
        · exact Or.inl

/-! ### The whole state -/

/-- An operation of a block: it leaves the timing unit, the configuration, the exchange, the marker pins and the
queue of commands alone, reports by events and alarms, and keeps the table and the ring in form. -/
structure Works (s t : State) : Prop where
  timing : t.timing = s.timing
  config : t.config = s.config
  exchange : t.exchange = s.exchange
  pins : t.markerPins = s.markerPins
  pending : t.pending = s.pending
  reports : Reports s.reporting t.reporting
  table : Descends s.table t.table
  ring : RingStep s.ring t.ring

/-- An operation that also leaves the Cue Bus Interface and the Claim Mirror alone. -/
structure Acts (s t : State) : Prop extends Works s t where
  bus : t.bus = s.bus
  mirror : t.mirror = s.mirror

theorem Works.refl (s : State) : Works s s :=
  ⟨rfl, rfl, rfl, rfl, rfl, Reports.refl _, Descends.refl _, RingStep.refl _⟩

theorem Works.trans {a b c : State} (h : Works a b) (g : Works b c) : Works a c :=
  ⟨g.timing.trans h.timing, g.config.trans h.config, g.exchange.trans h.exchange, g.pins.trans h.pins,
    g.pending.trans h.pending, h.reports.trans g.reports, h.table.trans g.table, h.ring.trans g.ring⟩

theorem Acts.refl (s : State) : Acts s s := ⟨Works.refl s, rfl, rfl⟩

theorem Acts.trans {a b c : State} (h : Acts a b) (g : Acts b c) : Acts a c :=
  ⟨h.toWorks.trans g.toWorks, g.bus.trans h.bus, g.mirror.trans h.mirror⟩

/-- An operation on the blocks that no relation above speaks of. -/
theorem Acts.inner (s : State) (p : Publisher) (m : Markers) (q : Sequencer) (l : LayoutStore)
    (c : CompositionMode) (g : Engine) :
    Acts s { s with publisher := p, markers := m, sequencer := q, layouts := l, compositor := c,
                    engine := g } :=
  ⟨⟨rfl, rfl, rfl, rfl, rfl, Reports.refl _, Descends.refl _, RingStep.refl _⟩, rfl, rfl⟩

/-- An operation on those blocks and on the ring. -/
theorem Acts.withRing (s : State) {r : Ring} (h : RingStep s.ring r) (p : Publisher) (m : Markers)
    (q : Sequencer) (l : LayoutStore) (c : CompositionMode) (g : Engine) :
    Acts s { s with ring := r, publisher := p, markers := m, sequencer := q, layouts := l,
                    compositor := c, engine := g } :=
  ⟨⟨rfl, rfl, rfl, rfl, rfl, Reports.refl _, Descends.refl _, h⟩, rfl, rfl⟩

/-- An operation on those blocks and on the table. -/
theorem Acts.withTable (s : State) {t : List Junction} (h : Descends s.table t) (p : Publisher) :
    Acts s { s with table := t, publisher := p } :=
  ⟨⟨rfl, rfl, rfl, rfl, rfl, Reports.refl _, h, RingStep.refl _⟩, rfl, rfl⟩

/-- An operation on the Cue Bus Interface, the mirror and the publisher. -/
theorem Works.onBus (s : State) (b : CueBus) (m : Mirror) (p : Publisher) :
    Works s { s with bus := b, mirror := m, publisher := p } :=
  ⟨rfl, rfl, rfl, rfl, rfl, Reports.refl _, Descends.refl _, RingStep.refl _⟩

end Sys2Proof.Machine
end

