-- ==== Sys2Proof/Laws/Acts.lean ====
section
/-! SUPPORT. One lemma for each shared operation: all of them act (`Acts`) or work (`Works`) on the state, so that
what those relations keep, every operation keeps. -/

namespace Sys2Proof.Machine

/-! ### Posting, alarms, claims and records -/

theorem Acts.postAt (s : State) (hf : Frame) (k : EventKind) (j : Option JunctionNumber) (c v : BitVec 24) :
    Acts s (s.postAt hf k j c v) :=
  ⟨⟨rfl, rfl, rfl, rfl, rfl, (Reports.refl _).post hf k j c v, Descends.refl _, RingStep.refl _⟩, rfl, rfl⟩

theorem Acts.post (s : State) (k : EventKind) (j : Option JunctionNumber) (c v : BitVec 24) :
    Acts s (s.post k j c v) := Acts.postAt s s.hf k j c v

theorem Acts.raise (s : State) (n : AlarmName) (d : BitVec 24) :
    Acts s { s with reporting := s.reporting.raise n d } :=
  ⟨⟨rfl, rfl, rfl, rfl, rfl, (Reports.refl _).raise n d, Descends.refl _, RingStep.refl _⟩, rfl, rfl⟩

theorem Acts.raiseAlarm (s : State) (n : AlarmName) (d : BitVec 24) (j : Option JunctionNumber) :
    Acts s (s.raiseAlarm n d j) := (Acts.raise s n d).trans (Acts.post _ _ _ _ _)

theorem Acts.raiseForJunction (s : State) (n : AlarmName) (j : JunctionNumber) :
    Acts s (s.raiseForJunction n j) := Acts.raiseAlarm s n _ _

theorem Acts.updateClaim (s : State) (n : JunctionNumber) (role : ClaimRole) (f : OwnClaim → OwnClaim) :
    Acts s (s.updateClaim n role f) := Acts.inner s _ _ _ _ _ _

theorem Acts.dropClaim (s : State) (n : JunctionNumber) (role : ClaimRole) : Acts s (s.dropClaim n role) :=
  Acts.inner s _ _ _ _ _ _

theorem Acts.dropClaims (s : State) (n : JunctionNumber) : Acts s (s.dropClaims n) :=
  Acts.inner s _ _ _ _ _ _

theorem Acts.addClaim (s : State) (c : OwnClaim) : Acts s (s.addClaim c) := Acts.inner s _ _ _ _ _ _

/-- A change of one record that keeps its number and fields and adds no interval. -/
theorem Acts.updateJunction (s : State) (n : JunctionNumber) (f : Junction → Junction)
    (hn : ∀ r, (f r).number = r.number) (ho : ∀ r, ∀ x ∈ (f r).occupied, x ∈ r.occupied)
    (hf : ∀ r, (f r).fields = r.fields) : Acts s (s.updateJunction n f) := by
  refine Acts.withTable s (Descends.map _ _ ?_ ?_ ?_) s.publisher
  · intro r; split
    · exact hn r
    · rfl
  · intro r x hx
    split at hx
    · exact ho r x hx
    · exact hx
  · intro r; split
    · exact hf r
    · rfl

/-- A record takes its place with fields that it occupies already. -/
theorem Acts.replaceJunction (s : State) {r a : Junction} (ha : a ∈ s.table) (hn : r.number = a.number)
    (ho : ∀ x ∈ r.occupied, x ∈ a.occupied) : Acts s (s.replaceJunction r) :=
  Acts.withTable s (Descends.replace ha hn ho) s.publisher

theorem State.junction?_mem {s : State} {n : JunctionNumber} {r : Junction} (h : s.junction? n = some r) :
    r ∈ s.table ∧ r.number = n :=
  ⟨List.mem_of_find?_eq_some h, by simpa using List.find?_some h⟩

/-! ### The Promo Fetch Engine and the slots -/

theorem Acts.freeSlots (s : State) (p : RingSlot → Bool) : Acts s (s.freeSlots p) :=
  Acts.withRing s (RingStep.free s.ring p) _ _ _ _ _ _

theorem Acts.updateSlots (s : State) (p : RingSlot → Bool) (f : RingSlot → RingSlot) (g : Engine) :
    Acts s { s with ring := s.ring.update p f, engine := g } :=
  Acts.withRing s (RingStep.update s.ring p f) _ _ _ _ _ _

theorem Acts.engine (s : State) (g : Engine) : Acts s { s with engine := g } := Acts.inner s _ _ _ _ _ _

theorem Acts.beginFrame (s : State) : Acts s s.beginFrame := by
  unfold State.beginFrame
  split
  · split
    · next hi => exact Acts.withRing s (RingStep.take hi _ _) _ _ _ _ _ _
    · exact Acts.refl s
  · exact Acts.refl s

theorem Acts.engineIdle (s : State) : Acts s s.engineIdle := (Acts.engine s _).trans (Acts.beginFrame _)

theorem Acts.endOrphan (s : State) : Acts s s.endOrphan := (Acts.freeSlots s _).trans (Acts.engineIdle _)

theorem Acts.damage (s : State) (c : StallCause) : Acts s (s.damage c) := by
  unfold State.damage
  split
  · exact (Acts.updateSlots s _ _ s.engine).trans ((Acts.post _ _ _ _ _).trans (Acts.engineIdle _))
  · exact Acts.engineIdle s

theorem Acts.frameReady (s : State) : Acts s s.frameReady :=
  (Acts.updateSlots s _ _ s.engine).trans (Acts.engineIdle _)

theorem Acts.reissue (s : State) : Acts s s.reissue := by
  unfold State.reissue
  split
  · split
    · exact Acts.engine s _
    · split
      · exact Acts.engine s _
      · exact Acts.frameReady s
  · exact Acts.refl s

theorem Acts.countRetry (s : State) (b : Bool) : Acts s (s.countRetry b) := by
  unfold State.countRetry
  split
  · exact Acts.engine s _
  · exact (Acts.engine s _).trans (Acts.damage _ _)

theorem Acts.endBrokenRun (s : State) : Acts s s.endBrokenRun := by
  unfold State.endBrokenRun
  split
  · exact Acts.endOrphan s
  · split
    · exact Acts.damage s _
    · exact Acts.countRetry s _

theorem Acts.endKeptRun (s : State) : Acts s s.endKeptRun := by
  unfold State.endKeptRun
  split
  · exact Acts.endOrphan s
  · split
    · exact Acts.damage s _
    · exact Acts.reissue s

theorem Acts.orphanRequest (s : State) : Acts s s.orphanRequest := by
  unfold State.orphanRequest
  split
  · exact Acts.refl s
  · split
    · exact Acts.refl s
    · dsimp only
      split
      · exact (Acts.engine s _).trans (Acts.freeSlots _ _)
      · exact (Acts.freeSlots s _).trans (Acts.engine _ _)
      · exact Acts.engine s _
      · exact Acts.engine s _
      · exact Acts.engine s _

theorem Acts.orphanWhere (s : State) (p : Request → Bool) : Acts s (s.orphanWhere p) := by
  unfold State.orphanWhere
  split
  · split
    · exact Acts.orphanRequest s
    · exact Acts.refl s
  · exact Acts.refl s

theorem Acts.limitNeeded (s : State) (j : JunctionNumber) (n : Nat) : Acts s (s.limitNeeded j n) := by
  unfold State.limitNeeded
  split
  · exact Acts.refl s
  · exact (Acts.engine s _).trans ((Acts.freeSlots _ _).trans
      ((Acts.orphanWhere _ _).trans (Acts.beginFrame _)))

theorem Acts.stopFetching (s : State) (j : JunctionNumber) : Acts s (s.stopFetching j) := by
  unfold State.stopFetching
  split
  · exact Acts.refl s
  · exact Acts.limitNeeded s _ _

theorem Acts.createEntry (s : State) (r : Junction) : Acts s (s.createEntry r) :=
  (Acts.engine s _).trans (Acts.beginFrame _)

theorem Acts.dropFetch (s : State) (n : JunctionNumber) : Acts s (s.dropFetch n) :=
  (Acts.engine s _).trans ((Acts.freeSlots _ _).trans (Acts.orphanWhere _ _))

theorem Acts.judgeBlock (s : State) (i : Nat) (good : Bool) (p : List LinkWord) :
    Acts s (s.judgeBlock i good p) := by
  unfold State.judgeBlock
  dsimp only
  split
  · exact Acts.engine s _
  · split
    · exact Acts.updateSlots s _ _ _
    · split <;> exact Acts.engine s _

theorem Acts.receiveBlock (s : State) (i : Nat) (good : Bool) (p : List LinkWord) :
    Acts s (s.receiveBlock i good p) := by
  unfold State.receiveBlock
  split
  · split
    · exact Acts.refl s
    · split
      · exact Acts.judgeBlock s _ _ _
      · exact Acts.engine s _
  · exact Acts.refl s

/-! ### The Junction Table -/

theorem Acts.postEnd (s : State) (r : Junction) : Acts s (s.postEnd r) := by
  unfold State.postEnd
  split
  · exact Acts.post s _ _ _ _
  · exact Acts.refl s

theorem Acts.endRecord (s : State) (n : JunctionNumber) (e : Ending) : Acts s (s.endRecord n e) := by
  unfold State.endRecord
  split
  · exact Acts.refl s
  · exact (Acts.withTable s (Descends.filter _ _) s.publisher).trans ((Acts.dropClaims _ _).trans
      ((Acts.dropFetch _ _).trans ((Acts.postEnd _ _).trans (Acts.beginFrame _))))

theorem Acts.endRecords (s : State) (e : Ending) (ns : List JunctionNumber) : Acts s (s.endRecords e ns) := by
  induction ns generalizing s with
  | nil => exact Acts.refl s
  | cons n ns ih => exact (Acts.endRecord s n e).trans (ih _)

theorem Acts.lapse (s : State) (n : JunctionNumber) (c : LapseCause) : Acts s (s.lapse n c) := by
  unfold State.lapse
  refine (Acts.trans ?_ (Acts.dropClaim _ _ _)).trans (Acts.post _ _ _ _ _)
  refine Acts.updateJunction s n _ (fun _ => rfl) ?_ (fun _ => rfl)
  intro r x hx
  simp only [Junction.occupied, Option.map_none, Option.toList_none, List.mem_singleton] at hx
  simp [Junction.occupied, hx]

theorem Acts.lapseAll (s : State) (c : LapseCause) (ns : List JunctionNumber) : Acts s (s.lapseAll c ns) := by
  induction ns generalizing s with
  | nil => exact Acts.refl s
  | cons n ns ih => exact (Acts.lapse s n c).trans (ih _)

theorem Acts.jumpEnd (s : State) (rs : List Junction) : Acts s (s.jumpEnd rs) := by
  induction rs generalizing s with
  | nil => exact Acts.refl s
  | cons r rs ih => exact (Acts.endRecord s _ _).trans (ih _)

theorem Acts.jumpEndings (s : State) : Acts s s.jumpEndings := Acts.jumpEnd s _

/-! ### The Layout Store -/

theorem Acts.layouts (s : State) (l : LayoutStore) : Acts s { s with layouts := l } :=
  Acts.inner s _ _ _ _ _ _

theorem Acts.loadLayout (s : State) (c : Byte) (j : Option JunctionNumber) : Acts s (s.loadLayout c j) :=
  (Acts.layouts s _).trans (Acts.post _ _ _ _ _)

theorem Acts.loadAtFrame (s : State) : Acts s s.loadAtFrame := by
  unfold State.loadAtFrame
  split
  · exact Acts.loadLayout s _ _
  · exact Acts.refl s

theorem Acts.rampEndNotice (s : State) (n : JunctionNumber) : Acts s (s.rampEndNotice n) := by
  unfold State.rampEndNotice
  split
  · exact Acts.loadLayout s _ _
  · exact Acts.refl s

theorem Acts.dropStaged (s : State) (n : JunctionNumber) : Acts s (s.dropStaged n) := by
  unfold State.dropStaged
  split
  · exact Acts.post s _ _ _ _
  · exact Acts.refl s

theorem Acts.loadAtStart (s : State) (n : JunctionNumber) (o : Option Layout) : Acts s (s.loadAtStart n o) := by
  unfold State.loadAtStart
  split
  · exact (Acts.dropStaged s _).trans ((Acts.layouts _ _).trans (Acts.loadLayout _ _ _))
  · split
    · exact Acts.loadLayout s _ _
    · exact Acts.refl s

/-! ### The Junction Sequencer and the Frame Ring's presentation -/

theorem Acts.sequencer (s : State) (q : Sequencer) : Acts s { s with sequencer := q } :=
  Acts.inner s _ _ _ _ _ _

theorem Acts.applyCues (s : State) (j : Nat) (cs : List CuePoint) : Acts s (s.applyCues j cs) := by
  induction cs generalizing s with
  | nil => exact Acts.refl s
  | cons c cs ih =>
    unfold State.applyCues
    split
    · exact (Acts.sequencer s _).trans (ih _)
    · exact ih s

theorem Acts.returnLine (s : State) (i : Fin 4) : Acts s (s.returnLine i) := by
  unfold State.returnLine
  split
  · exact Acts.sequencer s _
  · exact Acts.refl s

theorem Acts.pulseReturns (s : State) : Acts s s.pulseReturns :=
  (Acts.returnLine s 0).trans ((Acts.returnLine _ 1).trans ((Acts.returnLine _ 2).trans (Acts.returnLine _ 3)))

theorem Acts.requestRelease (s : State) (w : Reason) : Acts s (s.requestRelease w) := by
  unfold State.requestRelease
  split
  · exact Acts.refl s
  · split
    · exact Acts.sequencer s _
    · exact Acts.post s _ _ _ _

theorem Acts.endOnAir (s : State) : Acts s s.endOnAir := by
  unfold State.endOnAir
  split
  · refine (Acts.trans ?_ (Acts.post _ _ _ _ _)).trans (Acts.endRecord _ _ _)
    refine Acts.withRing s ?_ _ _ _ _ _ _
    exact RingStep.of_eq rfl rfl
  · exact Acts.refl s

/-- A change of a record that leaves its number, its fields and its pending amendment. -/
theorem Acts.updateState (s : State) (n : JunctionNumber) (f : Junction → Junction)
    (hn : ∀ r, (f r).number = r.number) (ho : ∀ r, (f r).occupied = r.occupied) :
    Acts s (s.updateJunction n f) :=
  Acts.updateJunction s n f hn (fun r x hx => by rwa [ho r] at hx) (fun r => (List.cons.inj (ho r)).1)

theorem Acts.beginRelease (s : State) (r : Junction) (w : Reason) : Acts s (s.beginRelease r w) := by
  unfold State.beginRelease
  dsimp only
  have h : Acts s _ := (Acts.sequencer s
    { s.sequencer with
      phase := .release, begun := true, ramp := 0, holdLeft := 0,
      releaseLeft := releaseLoad s.sequencer r.fields }).trans
    (Acts.updateState _ r.number (fun x => { x with state := .release }) (fun _ => rfl) (fun _ => rfl))
  split
  · split
    · exact h.trans ((Acts.limitNeeded _ _ _).trans ((Acts.post _ _ _ _ _).trans (Acts.endOnAir _)))
    · exact h.trans ((Acts.updateClaim _ _ _ _).trans ((Acts.limitNeeded _ _ _).trans
        ((Acts.post _ _ _ _ _).trans (Acts.endOnAir _))))
  · split
    · exact h.trans ((Acts.limitNeeded _ _ _).trans (Acts.post _ _ _ _ _))
    · exact h.trans ((Acts.updateClaim _ _ _ _).trans ((Acts.limitNeeded _ _ _).trans (Acts.post _ _ _ _ _)))

theorem Acts.stepSqueeze (s : State) (r : Junction) : Acts s (s.stepSqueeze r) := by
  unfold State.stepSqueeze
  dsimp only
  split
  · split
    · exact (Acts.sequencer s _).trans (Acts.rampEndNotice _ _)
    · exact Acts.sequencer s _
  · exact (Acts.sequencer s _).trans (Acts.updateState _ _ _ (fun _ => rfl) (fun _ => rfl))

theorem Acts.stepHold (s : State) (r : Junction) : Acts s (s.stepHold r) := by
  unfold State.stepHold
  dsimp only
  split
  · exact (Acts.sequencer s _).trans (Acts.beginRelease _ _ _)
  · exact Acts.sequencer s _

theorem Acts.stepRelease (s : State) : Acts s s.stepRelease := by
  unfold State.stepRelease
  dsimp only
  split
  · exact (Acts.sequencer s _).trans (Acts.endOnAir _)
  · exact Acts.sequencer s _

theorem Acts.stepPhase (s : State) (r : Junction) : Acts s (s.stepPhase r) := by
  unfold State.stepPhase
  split
  · exact Acts.stepSqueeze s r
  · exact Acts.beginRelease s r _
  · exact Acts.stepHold s r
  · exact Acts.beginRelease s r _
  · exact Acts.stepRelease s
  · exact Acts.refl s

theorem Acts.advance (s : State) : Acts s s.advance := by
  unfold State.advance
  split
  · exact Acts.refl s
  · split
    · exact Acts.sequencer s _
    · split
      · exact Acts.refl s
      · exact (Acts.pulseReturns s).trans ((Acts.sequencer _ _).trans
          ((Acts.applyCues _ _ _).trans (Acts.stepPhase _ _)))

theorem Acts.startLayouts (s : State) (r : Junction) : Acts s (s.startLayouts r) := by
  unfold State.startLayouts
  dsimp only
  split
  · exact (Acts.loadAtStart s _ _).trans (Acts.rampEndNotice _ _)
  · exact Acts.loadAtStart s _ _

theorem Acts.putOnAir (s : State) (x : StartContext) (r : Junction) (first : Frame) :
    Acts s (s.putOnAir x r first) := by
  unfold State.putOnAir
  refine Acts.trans ?_ (Acts.updateState _ _ _ (fun _ => rfl) (fun _ => rfl))
  refine Acts.withRing s ?_ _ _ _ _ _ _
  exact RingStep.trans (RingStep.update s.ring _ _) (RingStep.of_eq rfl rfl)

theorem Acts.makeStart (s : State) (x : StartContext) (r : Junction) (first : Frame) (k : StartKind) :
    Acts s (s.makeStart x r first k) := by
  have h : Acts s _ := (Acts.putOnAir s x r first).trans ((Acts.applyCues _ 0 r.fields.cues).trans
    ((Acts.updateClaim _ r.number .record (OwnClaim.goOnAir r.fields first)).trans
      (Acts.limitNeeded _ r.number (r.fields.rin + r.fields.actualHold first + r.fields.rout))))
  unfold State.makeStart
  dsimp only
  split
  · exact h.trans ((Acts.startLayouts _ _).trans (Acts.postAt _ _ _ _ _ _))
  · exact h.trans ((Acts.postAt _ _ _ _ _ _).trans (Acts.startLayouts _ _))

theorem Acts.takeStart (s : State) (x : StartContext) (r : Junction) (first : Frame) (k : StartKind) :
    Acts s (s.takeStart x r first k) := by
  unfold State.takeStart
  split
  · exact Acts.makeStart s _ _ _ _
  · exact Acts.endRecord s _ _

theorem Acts.testStart (s : State) (x : StartContext) (b : Bool) (r : Junction) :
    Acts s (s.testStart x b r) := by
  unfold State.testStart
  split
  · split
    · exact Acts.takeStart s _ _ _ _
    · exact Acts.endRecord s _ _
  · split
    · exact Acts.endRecord s _ _
    · exact Acts.refl s

theorem Acts.testStarts (s : State) (x : StartContext) (b : Bool) (rs : List Junction) :
    Acts s (s.testStarts x b rs) := by
  induction rs generalizing s with
  | nil => exact Acts.refl s
  | cons r rs ih => exact (Acts.testStart s x b r).trans (ih _)

theorem Acts.sequencerBoundary (s : State) (x : StartContext) : Acts s (s.sequencerBoundary x) :=
  (Acts.advance s).trans (Acts.testStarts _ _ _ _)

theorem Acts.ringItems (s : State) {r : Ring} (h : RingStep s.ring r) : Acts s { s with ring := r } :=
  Acts.withRing s h _ _ _ _ _ _

theorem Acts.promoFailure (s : State) (n : JunctionNumber) : Acts s (s.promoFailure n) := by
  unfold State.promoFailure
  refine (((Acts.trans ?_ (Acts.raiseForJunction _ _ _)).trans (Acts.stopFetching _ _)).trans
    (Acts.requestRelease _ _))
  refine Acts.ringItems s ?_
  exact RingStep.of_eq rfl rfl

theorem Acts.slip (s : State) (n : JunctionNumber) : Acts s (s.slip n) := by
  unfold State.slip
  dsimp only
  split
  · refine Acts.trans (Acts.ringItems s ?_) (Acts.promoFailure _ _)
    exact RingStep.of_eq rfl rfl
  · exact Acts.ringItems s (RingStep.of_eq rfl rfl)

theorem Acts.showNext (s : State) (n : JunctionNumber) : Acts s (s.showNext n) := by
  unfold State.showNext
  refine Acts.trans ?_ (Acts.beginFrame _)
  refine Acts.ringItems s ?_
  exact ((RingStep.free s.ring _).trans (RingStep.update _ _ _)).trans (RingStep.of_eq rfl rfl)

theorem Acts.dropNext (s : State) (n : JunctionNumber) : Acts s (s.dropNext n) := by
  unfold State.dropNext
  refine Acts.trans ?_ (Acts.beginFrame _)
  refine Acts.ringItems s ?_
  exact (RingStep.free s.ring _).trans (RingStep.of_eq rfl rfl)

theorem Acts.ringAdvance (s : State) : Acts s s.ringAdvance := by
  unfold State.ringAdvance
  split
  · exact Acts.refl s
  · split
    · exact Acts.refl s
    · split
      · exact Acts.ringItems s (RingStep.of_eq rfl rfl)
      · split
        · split
          · exact Acts.showNext s _
          · exact Acts.dropNext s _
          · exact Acts.slip s _
          · exact Acts.refl s
        · exact Acts.slip s _

/-! ### The Marker Unit -/

theorem Acts.markers (s : State) (m : Markers) : Acts s { s with markers := m } := Acts.inner s _ _ _ _ _ _

theorem Acts.takeCapture (s : State) (rec : CaptureRecord) (src : MarkerSource) (c a : Frame) :
    Acts s (s.takeCapture rec src c a) := by
  unfold State.takeCapture
  split
  · exact Acts.markers s _
  · split
    · exact Acts.refl s
    · exact (Acts.markers s _).trans (Acts.raiseAlarm _ _ _ _)

theorem Acts.lineEdge (s : State) (i : Fin 4) (l : Level) : Acts s (s.lineEdge i l) := by
  unfold State.lineEdge
  split
  · exact Acts.refl s
  · split
    · exact Acts.refl s
    · split
      · exact Acts.takeCapture s _ _ _ _
      · exact Acts.refl s

theorem Acts.judgeFrame (s : State) (e : Frame) : Acts s (s.judgeFrame e) := by
  unfold State.judgeFrame
  dsimp only
  split
  · refine (Acts.markers s { s.markers with
      startCount := persist s.markers.startCount s.markers.startSeen
      releaseCount := persist s.markers.releaseCount s.markers.releaseSeen }).trans ?_
    split
    · split
      · exact (Acts.takeCapture _ _ _ _ _).trans (Acts.takeCapture _ _ _ _ _)
      · exact Acts.takeCapture _ _ _ _ _
    · split
      · exact Acts.takeCapture _ _ _ _ _
      · exact Acts.refl _
  · exact Acts.refl s

theorem Acts.postMarker (s : State) (rec : CaptureRecord) (c : Capture) (d : Disposition)
    (n : Option JunctionNumber) : Acts s (s.postMarker rec c d n) := Acts.post s _ _ _ _

theorem Acts.handStart (s : State) (x : StartContext) (m : MarkerSource) (c : Capture) :
    Acts s (s.handStart x m c) := by
  unfold State.handStart
  split
  · exact (Acts.takeStart s _ _ _ _).trans (Acts.postMarker _ _ _ _ _)
  · exact Acts.postMarker s _ _ _ _

theorem Acts.handRelease (s : State) (c : Capture) : Acts s (s.handRelease c) := by
  unfold State.handRelease
  split
  · exact Acts.postMarker s _ _ _ _
  · dsimp only
    split
    · exact (Acts.post s _ _ _ _).trans (Acts.postMarker _ _ _ _ _)
    · exact (Acts.requestRelease s _).trans (Acts.postMarker _ _ _ _ _)

theorem Acts.handOver (s : State) (x : StartContext) (j : Option (Frame × Frame)) (rec : CaptureRecord) :
    Acts s (s.handOver x j rec) := by
  unfold State.handOver
  split
  · exact Acts.refl s
  · dsimp only
    split
    · exact (Acts.markers s _).trans (Acts.handRelease _ _)
    · exact (Acts.markers s _).trans (Acts.handStart _ _ _ _)

theorem Acts.handOverAll (s : State) (x : StartContext) (j : Option (Frame × Frame))
    (recs : List CaptureRecord) : Acts s (s.handOverAll x j recs) := by
  induction recs generalizing s with
  | nil => exact Acts.refl s
  | cons r rs ih => exact (Acts.handOver s x j r).trans (ih _)

theorem Acts.markersBoundary (s : State) (x : StartContext) (e : Frame) (j : Option (Frame × Frame)) :
    Acts s (s.markersBoundary x e j) :=
  (Acts.judgeFrame s e).trans ((Acts.markers _ _).trans (Acts.handOverAll _ _ _ _))

/-! ### The Claim Publisher -/

theorem Acts.mapStates (s : State) (f : Junction → Junction) (p : Publisher)
    (hn : ∀ r, (f r).number = r.number) (ho : ∀ r, (f r).occupied = r.occupied) :
    Acts s { s with table := s.table.map f, publisher := p } :=
  Acts.withTable s (Descends.map _ f hn (fun r x hx => by rwa [ho r] at hx)
    (fun r => (List.cons.inj (ho r)).1)) p

theorem Acts.repostAll (s : State) (ns : List JunctionNumber) : Acts s (s.repostAll ns) :=
  Acts.mapStates s _ _ (fun r => by split <;> rfl) (fun r => by split <;> rfl)

theorem Acts.forfeit (s : State) (p : Nat) : Acts s (s.forfeit p) := by
  unfold State.forfeit
  dsimp only
  split
  · exact (Acts.repostAll s _).trans (Acts.lapseAll _ _ _)
  · exact ((Acts.repostAll s _).trans (Acts.lapseAll _ _ _)).trans (Acts.post _ _ _ _ _)

theorem Acts.stageForfeit (s : State) (x : CloseContext) : Acts s (s.stageForfeit x) := by
  unfold State.stageForfeit
  split
  · split
    · exact Acts.forfeit s _
    · exact Acts.refl s
  · exact Acts.refl s

theorem Acts.adopt (s : State) {r : Junction} {a : Amendment} (hr : r ∈ s.table) (ha : r.pending = some a) :
    Acts s (s.adopt r a) := by
  unfold State.adopt
  refine ((Acts.trans ?_ (Acts.dropClaim _ _ _)).trans (Acts.updateClaim _ _ _ _)).trans
    (Acts.post _ _ _ _ _)
  refine Acts.replaceJunction s hr rfl ?_
  intro x hx
  simp only [Junction.occupied, Option.map_none, Option.toList_none, List.mem_singleton] at hx
  simp [Junction.occupied, ha, hx]

theorem Acts.secondaryStep (s : State) (x : CloseContext) (n : JunctionNumber) :
    Acts s (s.secondaryStep x n) := by
  unfold State.secondaryStep
  split
  · exact Acts.refl s
  · next r hr =>
    split
    · exact Acts.refl s
    · next a ha =>
      split
      · exact Acts.lapse s _ _
      · split
        · exact Acts.refl s
        · unfold State.settleSecondary
          split
          · exact Acts.refl s
          · dsimp only
            split
            · exact Acts.adopt s (State.junction?_mem hr).1 ha
            · exact Acts.updateClaim s _ _ _

theorem Acts.lockClaim (s : State) (n : JunctionNumber) (p : Option Frame) : Acts s (s.lockClaim n p) := by
  unfold State.lockClaim
  refine Acts.trans ?_ (Acts.post _ _ _ _ _)
  exact Acts.trans (Acts.updateClaim s n .record (fun c => { c with cls := .locked, settle := none }))
    (Acts.updateState _ n (fun r => { r with state := .locked }) (fun _ => rfl) (fun _ => rfl))

theorem Acts.openResult (s : State) (x : CloseContext) (r : Junction) (c : OwnClaim) (res : SeatResult) :
    Acts s (s.openResult x r c res) := by
  unfold State.openResult
  split
  · unfold State.switchCampaign
    refine (Acts.trans ?_ (Acts.updateClaim _ _ _ _)).trans (Acts.post _ _ _ _ _)
    exact Acts.updateState s _ _ (fun _ => rfl) (fun _ => rfl)
  · dsimp only
    split
    · exact Acts.lockClaim s _ _
    · exact Acts.updateClaim s _ _ _

theorem Acts.loseLock (s : State) (r : Junction) (res : SeatResult) : Acts s (s.loseLock r res) := by
  have h : Acts s _ := (Acts.updateClaim s r.number .record
    (fun c => { c with cls := .opened, settle := some 0 })).trans
    (Acts.updateState _ r.number (fun r => { r with state := .opened }) (fun _ => rfl) (fun _ => rfl))
  unfold State.loseLock
  dsimp only
  split
  · exact h.trans ((Acts.lapse _ _ _).trans ((Acts.post _ _ _ _ _).trans (Acts.raiseForJunction _ _ _)))
  · exact h.trans ((Acts.post _ _ _ _ _).trans (Acts.raiseForJunction _ _ _))

theorem Acts.committedResult (s : State) (n : JunctionNumber) (c : OwnClaim) (res : SeatResult) :
    Acts s (s.committedResult n c res) := by
  unfold State.committedResult
  split
  · exact Acts.updateClaim s _ _ _
  · split
    · exact Acts.refl s
    · exact (Acts.raiseForJunction s _ _).trans ((Acts.post _ _ _ _ _).trans (Acts.updateClaim _ _ _ _))

theorem Acts.recordResult (s : State) (x : CloseContext) (r : Junction) (c : OwnClaim) (res : SeatResult) :
    Acts s (s.recordResult x r c res) := by
  unfold State.recordResult
  split
  · exact Acts.refl s
  · exact Acts.openResult s _ _ _ _
  · split
    · exact Acts.refl s
    · exact Acts.loseLock s _ _
  all_goals exact Acts.committedResult s _ _ _

theorem Acts.recordStep (s : State) (x : CloseContext) (n : JunctionNumber) : Acts s (s.recordStep x n) := by
  unfold State.recordStep
  split
  · split
    · exact Acts.recordResult s _ _ _ _
    · exact Acts.refl s
  · exact Acts.refl s

theorem Acts.stageSecondary (s : State) (x : CloseContext) (ns : List JunctionNumber) :
    Acts s (s.stageSecondary x ns) := by
  induction ns generalizing s with
  | nil => exact Acts.refl s
  | cons n ns ih => exact (Acts.secondaryStep s x n).trans (ih _)

theorem Acts.stageRecords (s : State) (x : CloseContext) (ns : List JunctionNumber) :
    Acts s (s.stageRecords x ns) := by
  induction ns generalizing s with
  | nil => exact Acts.refl s
  | cons n ns ih => exact (Acts.recordStep s x n).trans (ih _)

theorem Acts.stageResults (s : State) (x : CloseContext) : Acts s (s.stageResults x) :=
  (Acts.stageSecondary s x _).trans (Acts.stageRecords _ x _)

theorem Acts.commitTest (s : State) (x : CloseContext) (n : JunctionNumber) : Acts s (s.commitTest x n) := by
  unfold State.commitTest
  split
  · exact Acts.refl s
  · split
    · unfold State.commitRecord
      refine ((Acts.trans ?_ (Acts.updateClaim _ _ _ _)).trans (Acts.createEntry _ _)).trans
        (Acts.post _ _ _ _ _)
      exact Acts.updateState s _ _ (fun _ => rfl) (fun _ => rfl)
    · exact Acts.endRecord s _ _

theorem Acts.stageCommit (s : State) (x : CloseContext) (ns : List JunctionNumber) :
    Acts s (s.stageCommit x ns) := by
  induction ns generalizing s with
  | nil => exact Acts.refl s
  | cons n ns ih => exact (Acts.commitTest s x n).trans (ih _)

theorem Acts.declineSilent (s : State) (hf : Frame) (p : RecordState → Bool) : Acts s (s.declineSilent hf p) :=
  Acts.endRecords s _ _

theorem Acts.passOver (s : State) (c : Candidate) : Acts s (s.passOver c) := by
  unfold State.passOver
  split
  · exact Acts.lapse s _ _
  · split
    · split
      · unfold State.revert
        refine Acts.trans ?_ (Acts.dropClaim _ _ _)
        exact Acts.updateState s _ _ (fun r => by split <;> rfl) (fun r => by split <;> rfl)
      · exact Acts.refl s
    · exact Acts.refl s
  · exact Acts.refl s

theorem Acts.passOverAll (s : State) (cs : List Candidate) : Acts s (s.passOverAll cs) := by
  induction cs generalizing s with
  | nil => exact Acts.refl s
  | cons c cs ih => exact (Acts.passOver s c).trans (ih _)

theorem Acts.admitClaim (s : State) (c : Candidate) : Acts s (s.admitClaim c) := by
  unfold State.admitClaim
  split
  · split
    · refine Acts.trans ?_ (Acts.addClaim _ _)
      exact Acts.updateState s _ _ (fun _ => rfl) (fun _ => rfl)
    · exact Acts.refl s
  · exact Acts.refl s

theorem Acts.admitAll (s : State) (cs : List Candidate) : Acts s (s.admitAll cs) := by
  induction cs generalizing s with
  | nil => exact Acts.refl s
  | cons c cs ih => exact (Acts.admitClaim s c).trans (ih _)

theorem Acts.publishAll (s : State) (hf : Frame) (taken : List Byte) (cs : List Candidate) :
    Acts s (s.publishAll hf taken cs) := by
  induction cs generalizing s taken with
  | nil => exact Acts.refl s
  | cons c cs ih =>
    unfold State.publishAll
    split
    · split
      · exact (Acts.updateClaim s _ _ _).trans ((Acts.inner _ _ _ _ _ _ _).trans (ih _ _))
      · exact ih s taken
    · exact ih s taken

theorem Acts.stageChoice (s : State) (x : CloseContext) : Acts s (s.stageChoice x).1 :=
  (Acts.passOverAll s _).trans ((Acts.admitAll _ _).trans (Acts.publishAll _ _ _ _))

theorem Acts.publisherLeaves (s : State) : Acts s s.publisherLeaves :=
  (Acts.lapseAll s _ _).trans (Acts.mapStates _ _ _ (fun r => by split <;> rfl) (fun r => by split <;> rfl))

/-- Stages 1 to 5 of a close in MEMBER. -/
theorem Acts.memberStages (s : State) (x : CloseContext) :
    Acts s ((((s.stageForfeit x).stageResults x).stageCommits x).stageChoice x).1 :=
  (Acts.stageForfeit s x).trans ((Acts.stageResults _ x).trans
    ((Acts.stageCommit _ x _).trans (Acts.stageChoice _ x)))

theorem Acts.closeOutside (s : State) (x : CloseContext) : Acts s (s.closeOutside x) :=
  (Acts.stageResults s x).trans (Acts.declineSilent _ _ _)

/-! ### The Cue Bus Interface -/

theorem Works.handOn (s : State) (x : CloseContext) (cs : List Claim) : Works s (s.handOn x cs) :=
  Works.onBus s _ _ _

theorem Works.closeMember (s : State) (x : CloseContext) : Works s (s.closeMember x) :=
  (Acts.memberStages s x).toWorks.trans (Works.handOn _ _ _)

theorem Works.bus (s : State) (b : CueBus) : Works s { s with bus := b } := Works.onBus s b _ _

theorem Works.reevaluate (s : State) (own peer : Nat) : Works s (s.reevaluate own peer) := by
  unfold State.reevaluate
  dsimp only
  split
  · exact (Works.bus s _).trans (Acts.raiseAlarm _ _ _ _).toWorks
  · exact Works.bus s _

theorem Works.goodSlot (s : State) (own i : Nat) (hf : Frame) (h : HeardBeacon) :
    Works s (s.goodSlot own i hf h) := by
  unfold State.goodSlot
  dsimp only
  split
  · exact (Works.onBus s _ _ s.publisher).trans (Works.reevaluate _ _ _)
  · exact (Works.onBus s _ _ s.publisher).trans ((Acts.post _ _ _ _ _).toWorks.trans (Works.reevaluate _ _ _))

theorem Works.missedSlot (s : State) (own i : Nat) (c : Bool) : Works s (s.missedSlot own i c) := by
  unfold State.missedSlot
  dsimp only
  split
  · exact (Works.bus s _).trans ((Works.onBus _ _ _ _).trans
      ((Works.reevaluate _ _ _).trans (Acts.post _ _ _ _ _).toWorks))
  · exact Works.bus s _

theorem Works.peerSlot (s : State) (own i : Nat) (hf : Frame) (h : SlotHeard) :
    Works s (s.peerSlot own i hf h) := by
  unfold State.peerSlot
  split
  · exact Works.goodSlot s _ _ _ _
  · exact Works.missedSlot s _ _ _

theorem Works.leaveMember (s : State) (own : Nat) (st : StationState) : Works s (s.leaveMember own st) :=
  (Works.onBus s _ _ s.publisher).trans (Acts.publisherLeaves _).toWorks

theorem Works.slotClash (s : State) (own : Nat) : Works s (s.slotClash own) :=
  (Works.leaveMember s _ _).trans (Acts.raiseAlarm _ _ _ _).toWorks

theorem Works.readBack (s : State) (own : Nat) (sent : List Byte) (h : SlotHeard) :
    Works s (s.readBack own sent h) := by
  unfold State.readBack
  generalize (if readBackMatches own sent h then 0 else s.bus.mismatches + 1) = k
  dsimp only
  split
  · exact (Works.bus s _).trans (Works.slotClash _ _)
  · exact Works.bus s _

theorem Works.ownSlotEnd (s : State) (own : Nat) (h : SlotHeard) : Works s (s.ownSlotEnd own h) := by
  unfold State.ownSlotEnd
  split
  · exact Works.readBack s _ _ _
  · exact Works.refl s

theorem Works.slotEnded (s : State) (own : Nat) (cy : Cycle) (h : SlotHeard) :
    Works s (s.slotEnded own cy h) := by
  unfold State.slotEnded
  dsimp only
  split
  · exact (Works.bus s _).trans (Works.ownSlotEnd _ _ _)
  · exact (Works.bus s _).trans (Works.peerSlot _ _ _ _ _)

theorem Works.busBoundary (s : State) : Works s s.busBoundary := by
  unfold State.busBoundary
  split
  · unfold State.busHoldover
    dsimp only
    split
    · exact (Works.bus s _).trans (Works.bus _ _)
    · exact (Works.bus s _).trans ((Works.leaveMember _ _ _).trans (Works.bus _ _))
    all_goals exact Works.bus s _
  · unfold State.busLocked
    split
    · exact (Works.bus s _).trans (Works.bus _ _)
    · exact Works.bus s _
    · exact (Works.bus s _).trans (Works.bus _ _)
    · exact Works.bus s _
    · exact Works.bus s _
  · exact Works.refl s
  · exact Works.refl s

theorem Works.close (s : State) (c : Configuration) (hf : Frame) : Works s (s.close c hf) := by
  have hl (t : State) : Works t (t.listenClose c.station) := by
    unfold State.listenClose
    dsimp only
    split
    · exact Works.bus t _
    · split
      · exact Works.bus t _
      · exact Works.refl t
  have hp (t : State) (x : CloseContext) : Works t (t.publisherClose x) := by
    unfold State.publisherClose
    split
    · exact Works.closeMember t x
    · exact (Acts.closeOutside t x).toWorks
  exact (Works.bus s _).trans ((hl _).trans ((Works.onBus _ _ _ _).trans (hp _ _)))

/-! ### Frame boundaries -/

theorem Works.boundaryOp (s : State) (b : Boundary) (x : StartContext) (op : BoundaryOp) :
    Works s (s.boundaryOp b x op) := by
  cases op <;> unfold State.boundaryOp <;> dsimp only
  · exact Works.busBoundary s
  · split
    · exact (Acts.declineSilent s _ _).toWorks
    · exact Works.refl s
  · split
    · exact (Acts.jumpEndings s).toWorks
    · exact Works.refl s
  · exact (Acts.markersBoundary s _ _ _).toWorks
  · exact (Acts.sequencerBoundary s _).toWorks
  · exact (Acts.ringAdvance s).toWorks
  · exact (Acts.loadAtFrame s).toWorks
  · split
    · exact (Acts.raiseAlarm s _ _ _).toWorks
    · exact Works.refl s

theorem Works.boundaryOps (s : State) (b : Boundary) (f : Bool) (ops : List BoundaryOp) :
    Works s (s.boundaryOps b f ops) := by
  induction ops generalizing s with
  | nil => exact Works.refl s
  | cons op ops ih => exact (Works.boundaryOp s b _ op).trans (ih _)

theorem Works.issueBoundary (s : State) (b : Boundary) (o : BoundaryOrder) : Works s (s.issueBoundary b o) := by
  refine Works.trans ?_ (Works.boundaryOps _ _ _ _)
  unfold State.postJump
  split
  · exact (Acts.postAt s _ _ _ _ _).toWorks
  · exact Works.refl s

end Sys2Proof.Machine
end

