-- ==== Sys2Proof/Laws/Fetch.lean ====
section
/-! SUPPORT. What the shared operations of the Promo Fetch Engine do to the slots and to the request: beginning a
frame, completing it, giving it up, and asking again. -/

namespace Sys2Proof.Machine

/-! ### The lowest FREE slot -/

theorem lowestFree_eq_some {l : List (Option RingSlot)} {i : Nat} (k : Nat) (free : l[i]? = some none)
    (lowest : ∀ j, j < i → l[j]? ≠ some none) : lowestFree l k = some (k + i) := by
  induction l generalizing k i with
  | nil => simp at free
  | cons o l ih =>
    cases i with
    | zero => simp at free; subst free; rfl
    | succ i =>
      cases o with
      | none => exact absurd rfl (lowest 0 (by omega))
      | some u =>
        rw [lowestFree, ih (k + 1) (by simpa using free)
          (fun j hj => by simpa using lowest (j + 1) (by omega))]
        congr 1; omega

theorem lowestFree_eq_none {l : List (Option RingSlot)} (k : Nat) (h : ∀ i : Nat, l[i]? ≠ some none) :
    lowestFree l k = none := by
  cases hl : lowestFree l k with
  | none => rfl
  | some i => exact absurd (lowestFree_spec hl).2 (h _)

/-! ### Beginning a frame -/

/-- Beginning a frame touches the engine and the ring alone. -/
theorem State.beginFrame_eq (s : State) :
    s.beginFrame = { s with engine := s.beginFrame.engine, ring := s.beginFrame.ring } := by
  unfold State.beginFrame
  split
  · split <;> rfl
  · rfl

@[simp] theorem State.beginFrame_reporting (s : State) : s.beginFrame.reporting = s.reporting := by
  rw [State.beginFrame_eq]

@[simp] theorem State.beginFrame_table (s : State) : s.beginFrame.table = s.table := by
  rw [State.beginFrame_eq]

@[simp] theorem State.beginFrame_publisher (s : State) : s.beginFrame.publisher = s.publisher := by
  rw [State.beginFrame_eq]

@[simp] theorem State.beginFrame_sequencer (s : State) : s.beginFrame.sequencer = s.sequencer := by
  rw [State.beginFrame_eq]

@[simp] theorem State.beginFrame_exchange (s : State) : s.beginFrame.exchange = s.exchange := by
  rw [State.beginFrame_eq]

/-- Nothing that beginning a frame reads is the exchange. -/
theorem State.beginFrame_withExchange (s : State) (e : Exchange) :
    { s.beginFrame with exchange := e } = ({ s with exchange := e }).beginFrame := by
  unfold State.beginFrame
  by_cases h : s.engine.state = .idle
  · simp only [h, if_true]
    cases s.engine.entries.find? FetchEntry.unfetched <;> cases lowestFree s.ring.slots 0 <;> rfl
  · simp only [h, if_false]

/-- A slot that is taken stays as it is when a frame is begun. -/
theorem State.beginFrame_slot {s : State} {i : Nat} {u : RingSlot} (h : s.ring.slots[i]? = some (some u)) :
    s.beginFrame.ring.slots[i]? = some (some u) := by
  unfold State.beginFrame
  split
  · split
    · next e j he hj =>
      have hfree := (lowestFree_spec hj).2
      simp only [Ring.take, List.getElem?_set]
      by_cases hji : j = i
      · subst hji; simp_all
      · simp [hji, h]
    · exact h
  · exact h

/-- A FREE slot stays FREE or is FILLING with no block when a frame is begun. -/
theorem State.beginFrame_freed {s : State} {i : Nat} (h : s.ring.slots[i]? = some none) :
    s.beginFrame.ring.Freed i := by
  intro u hu
  unfold State.beginFrame at hu
  split at hu
  · split at hu
    · simp only [Ring.take, List.getElem?_set] at hu
      split at hu
      · split at hu
        · cases hu; exact ⟨rfl, rfl⟩
        · cases hu
      · rw [h] at hu; cases hu
    · rw [h] at hu; cases hu
  · rw [h] at hu; cases hu

/-- The entries keep everything but a fetch index when a frame is begun. -/
theorem State.beginFrame_entries {s : State} {e : FetchEntry} (h : e ∈ s.beginFrame.engine.entries) :
    ∃ e' ∈ s.engine.entries, e'.junction = e.junction ∧ e'.needed = e.needed := by
  unfold State.beginFrame at h
  split at h
  · split at h
    · simp only [Engine.send, Engine.updateEntry, List.mem_map] at h
      obtain ⟨a, ha, rfl⟩ := h
      exact ⟨a, ha, by split <;> simp⟩
    · exact ⟨e, h, rfl, rfl⟩
  · exact ⟨e, h, rfl, rfl⟩

/-! ### The end of a frame -/

/-- A frame that is complete: its slot is READY, nothing is posted (R164). -/
theorem State.frameReady_spec (s : State) :
    s.SameAround s.frameReady ∧ s.frameReady.reporting = s.reporting ∧ s.ring.FillingReady s.frameReady.ring := by
  have a := Acts.frameReady s
  refine ⟨⟨a.config, a.exchange, a.pins, a.pending⟩, ?_, fun i u h => State.beginFrame_slot ?_⟩
  · simp [State.frameReady, State.engineIdle]
  · simp only [Ring.update, List.getElem?_map, h, Option.map_some, RingSlot.isFilling, beq_iff_eq]

/-- A frame that is given up: its slot is DAMAGED, and STALL is posted (R164, R166, R170). -/
theorem State.damage_spec (s : State) (cause : StallCause) {q : Request} (h : s.engine.request = some q) :
    s.ring.FillingDamaged (s.damage cause).ring ∧
      s.Posted (s.damage cause) .stall (some q.junction) (detailOf cause.code) (detailNat q.index) := by
  constructor
  · intro i u hu
    simp only [State.damage, h, State.engineIdle]
    apply State.beginFrame_slot
    simp only [State.post_ring, Ring.update, List.getElem?_map, hu, Option.map_some, RingSlot.isFilling, beq_iff_eq]
  · intro hroom
    have hroom' : s.reporting.events.length < eventCapacity := hroom
    simp only [State.damage, h, State.engineIdle, State.beginFrame_reporting, State.post_reporting, Reporting.post,
      hroom', if_true]
    rfl

/-- What a request that is sent again asks for (R164, R165, R166, R170; log 15). -/
theorem State.reissue_asksAgain {s : State} {q : Request} (h : s.engine.request = some q) :
    s.AsksAgain q (.next s.reissue) := by
  refine ⟨fun b hb => ?_, fun hb hl => ?_, fun hb hl => ?_⟩
  · simp [State.reissue, h, hb, State.asking, Engine.send]
  · simp [State.reissue, h, hb, State.asking, Engine.send, blocksPerFrame, hl]
  · have hr : s.reissue = s.frameReady := by
      simp [State.reissue, h, hb, blocksPerFrame, Nat.not_lt.mpr hl]
    rw [hr]
    exact ⟨_, rfl, s.frameReady_spec⟩

end Sys2Proof.Machine
end

