-- ==== Sys2Proof/Laws/Markers.lean ====
section
/-! SUPPORT. What the Marker Unit's operations do to the capture records. -/

namespace Sys2Proof.Machine

theorem Markers.get_set (m : Markers) (a b : CaptureRecord) (c : Option Capture) :
    (m.set a c).get b = if b = a then c else m.get b := by
  cases a <;> cases b <;> try rfl
  rename_i x y
  cases x <;> cases y <;> rfl

/-- A capture is taken into a record that is not valid (R102, R104). -/
theorem State.takeCapture_taken {s : State} {rec : CaptureRecord} (src : MarkerSource) (at_ from_ : Frame)
    (h : s.markers.get rec = none) : s.takeCapture rec src at_ from_ = { s with markers := s.markers.set rec (some
      { source := src, captureFrame := at_, availability := from_, overwrite := false }) } := by
  simp [State.takeCapture, h]

/-- A capture that meets a valid record is discarded, and the record is marked (R106). -/
theorem State.takeCapture_lost {s : State} {rec : CaptureRecord} {held : Capture} (src : MarkerSource)
    (at_ from_ : Frame) (h : s.markers.get rec = some held) :
    (s.takeCapture rec src at_ from_).markers.get rec = some { held with overwrite := true } := by
  simp only [State.takeCapture, h]
  split
  · next ho => rw [h]; cases held; simp_all
  · show ((s.markers.set rec _).get rec) = _
    rw [Markers.get_set, if_pos rfl]

/-- A capture touches no other record, and besides the records only the alarms and events (R106). -/
theorem State.takeCapture_frame (s : State) (rec : CaptureRecord) (src : MarkerSource) (at_ from_ : Frame) :
    let t := s.takeCapture rec src at_ from_
    t = { s with markers := t.markers, reporting := t.reporting } ∧
      ∀ other, other ≠ rec → t.markers.get other = s.markers.get other := by
  intro t
  simp only [t, State.takeCapture]
  split
  · exact ⟨rfl, fun o ho => by rw [Markers.get_set, if_neg ho]⟩
  · split
    · exact ⟨rfl, fun _ _ => rfl⟩
    · refine ⟨rfl, fun o ho => ?_⟩
      show (s.markers.set rec _).get o = _
      rw [Markers.get_set, if_neg ho]

end Sys2Proof.Machine
end

