-- ==== Sys2Proof/WellFormed.lean ====
section
/-! DEFINITION. Which commands can come from outside the part: the bounds that the wires themselves set on
what a command carries. The meanings do not rely on them. -/

namespace Sys2Proof

/-- An order's payload length travels in one byte (R177). -/
def payloadFits (payload : List Byte) : Bool := payload.length ≤ 255

/-- A block carries 7,680 payload words (Section 9.1). -/
def blockPayloadFits (payload : List LinkWord) : Bool := payload.length == 7680

/-- The codes of the twelve order kinds (Section 11.3). -/
def orderKindCodes : List Byte := [1, 2, 3, 4, 5, 6, 7, 16, 17, 18, 19, 20]

/-- Each block acts once at a boundary, so its place is named at most once. -/
def BoundaryOrder.wellFormed (o : BoundaryOrder) : Bool := decide o.ops.Nodup

/-- A command that the outside can bring. -/
def Instr.wellFormed : Instr → Bool
  | .reset => true
  | .referencePulse _ o => o.wellFormed
  | .referenceWindowClose o => o.wellFormed
  | .freeRunExpiry o => o.wellFormed
  | .countWord _ => true
  | .slotEnd _ => true
  | .cycleClose => true
  | .lineEdgeSettled _ _ => true
  | .markerPacket _ _ => true
  | .storeBlock _ _ p _ => blockPayloadFits p
  | .storeEnd => true
  | .storeDisconnect => true
  | .storeRetry => true
  | .backoffExpiry => true
  | .storeAbort => true
  | .noAnswerLimit => true
  | .oselDeasserted => true
  | .configure p _ => payloadFits p
  | .plan p _ => payloadFits p
  | .amend p _ => payloadFits p
  | .cancel p _ => payloadFits p
  | .withdrawAll p _ => payloadFits p
  | .layout p _ => payloadFits p
  | .resumeFetch p _ => payloadFits p
  | .queryStatus p _ => payloadFits p
  | .queryJunction p _ => payloadFits p
  | .queryMirror p _ => payloadFits p
  | .readEvents p _ => payloadFits p
  | .clearAlarm p _ => payloadFits p
  | .oselAsserted => true
  | .unknownOrderKind k p _ => payloadFits p && !orderKindCodes.contains k
  | .ownSlotStart => true

end Sys2Proof
end

