-- ==== Sys2Proof/Laws/PerInstr.lean ====
section
/-! SUPPORT. What well-formedness says of each command, one lemma for each constructor of `Instr`. -/

namespace Sys2Proof.Laws

open Sys2Proof.Machine

namespace CommandBounds

/-- The kind byte and the payload of the order frame that a command brings. -/
def orderFrame : Instr → Option (Byte × List Byte)
  | .reset => none
  | .referencePulse _ _ => none
  | .referenceWindowClose _ => none
  | .freeRunExpiry _ => none
  | .countWord _ => none
  | .slotEnd _ => none
  | .cycleClose => none
  | .lineEdgeSettled _ _ => none
  | .markerPacket _ _ => none
  | .storeBlock _ _ _ _ => none
  | .storeEnd => none
  | .storeDisconnect => none
  | .storeRetry => none
  | .backoffExpiry => none
  | .storeAbort => none
  | .noAnswerLimit => none
  | .oselDeasserted => none
  | .configure p _ => some (OrderKind.code .configure, p)
  | .plan p _ => some (OrderKind.code .plan, p)
  | .amend p _ => some (OrderKind.code .amend, p)
  | .cancel p _ => some (OrderKind.code .cancel, p)
  | .withdrawAll p _ => some (OrderKind.code .withdrawAll, p)
  | .layout p _ => some (OrderKind.code .layout, p)
  | .resumeFetch p _ => some (OrderKind.code .resumeFetch, p)
  | .queryStatus p _ => some (OrderKind.code .queryStatus, p)
  | .queryJunction p _ => some (OrderKind.code .queryJunction, p)
  | .queryMirror p _ => some (OrderKind.code .queryMirror, p)
  | .readEvents p _ => some (OrderKind.code .readEvents, p)
  | .clearAlarm p _ => some (OrderKind.code .clearAlarm, p)
  | .oselAsserted => none
  | .unknownOrderKind k p _ => some (k, p)
  | .ownSlotStart => none

/-- The boundary order that a command carries. -/
def boundaryOrder : Instr → Option BoundaryOrder
  | .reset => none
  | .referencePulse _ o => some o
  | .referenceWindowClose o => some o
  | .freeRunExpiry o => some o
  | .countWord _ => none
  | .slotEnd _ => none
  | .cycleClose => none
  | .lineEdgeSettled _ _ => none
  | .markerPacket _ _ => none
  | .storeBlock _ _ _ _ => none
  | .storeEnd => none
  | .storeDisconnect => none
  | .storeRetry => none
  | .backoffExpiry => none
  | .storeAbort => none
  | .noAnswerLimit => none
  | .oselDeasserted => none
  | .configure _ _ => none
  | .plan _ _ => none
  | .amend _ _ => none
  | .cancel _ _ => none
  | .withdrawAll _ _ => none
  | .layout _ _ => none
  | .resumeFetch _ _ => none
  | .queryStatus _ _ => none
  | .queryJunction _ _ => none
  | .queryMirror _ _ => none
  | .readEvents _ _ => none
  | .clearAlarm _ _ => none
  | .oselAsserted => none
  | .unknownOrderKind _ _ _ => none
  | .ownSlotStart => none

/-- A well-formed command brings an order frame whose payload length fits its byte, of the twelve kinds or of none of
them, a boundary order that names each block once at most, and a block of 7,680 words. -/
def Statement (i : Instr) : Prop :=
  i.wellFormed = true →
    (∀ k p, orderFrame i = some (k, p) → p.length ≤ 255 ∧
      (k ∈ orderKindCodes ↔ ∀ c, i ≠ .unknownOrderKind k p c)) ∧
    (∀ o, boundaryOrder i = some o → o.ops.Nodup) ∧
    ∀ n h p w, i = .storeBlock n h p w → p.length = 7680

theorem reset : Statement .reset := by
  intro _
  exact ⟨by simp [orderFrame], by simp [boundaryOrder], by simp⟩

theorem referencePulse (m : Moment) (o : BoundaryOrder) : Statement (.referencePulse m o) := by
  intro h
  refine ⟨by simp [orderFrame], ?_, by simp⟩
  intro x hx
  simp only [boundaryOrder, Option.some.injEq] at hx
  subst hx
  simpa [Instr.wellFormed, BoundaryOrder.wellFormed] using h

theorem referenceWindowClose (o : BoundaryOrder) : Statement (.referenceWindowClose o) := by
  intro h
  refine ⟨by simp [orderFrame], ?_, by simp⟩
  intro x hx
  simp only [boundaryOrder, Option.some.injEq] at hx
  subst hx
  simpa [Instr.wellFormed, BoundaryOrder.wellFormed] using h

theorem freeRunExpiry (o : BoundaryOrder) : Statement (.freeRunExpiry o) := by
  intro h
  refine ⟨by simp [orderFrame], ?_, by simp⟩
  intro x hx
  simp only [boundaryOrder, Option.some.injEq] at hx
  subst hx
  simpa [Instr.wellFormed, BoundaryOrder.wellFormed] using h

theorem countWord (w : CountWord) : Statement (.countWord w) := by
  intro _
  exact ⟨by simp [orderFrame], by simp [boundaryOrder], by simp⟩

theorem slotEnd (h : SlotHeard) : Statement (.slotEnd h) := by
  intro _
  exact ⟨by simp [orderFrame], by simp [boundaryOrder], by simp⟩

theorem cycleClose : Statement .cycleClose := by
  intro _
  exact ⟨by simp [orderFrame], by simp [boundaryOrder], by simp⟩

theorem lineEdgeSettled (i : Fin 4) (l : Level) : Statement (.lineEdgeSettled i l) := by
  intro _
  exact ⟨by simp [orderFrame], by simp [boundaryOrder], by simp⟩

theorem markerPacket (c k : Half) : Statement (.markerPacket c k) := by
  intro _
  exact ⟨by simp [orderFrame], by simp [boundaryOrder], by simp⟩

theorem storeBlock (n : Nat) (h : LinkWord) (p : List LinkWord) (w : LinkWord) : Statement (.storeBlock n h p w) := by
  intro hw
  refine ⟨by simp [orderFrame], by simp [boundaryOrder], ?_⟩
  rintro _ _ q _ ⟨⟩
  simpa [Instr.wellFormed, blockPayloadFits] using hw

theorem storeEnd : Statement .storeEnd := by
  intro _
  exact ⟨by simp [orderFrame], by simp [boundaryOrder], by simp⟩

theorem storeDisconnect : Statement .storeDisconnect := by
  intro _
  exact ⟨by simp [orderFrame], by simp [boundaryOrder], by simp⟩

theorem storeRetry : Statement .storeRetry := by
  intro _
  exact ⟨by simp [orderFrame], by simp [boundaryOrder], by simp⟩

theorem backoffExpiry : Statement .backoffExpiry := by
  intro _
  exact ⟨by simp [orderFrame], by simp [boundaryOrder], by simp⟩

theorem storeAbort : Statement .storeAbort := by
  intro _
  exact ⟨by simp [orderFrame], by simp [boundaryOrder], by simp⟩

theorem noAnswerLimit : Statement .noAnswerLimit := by
  intro _
  exact ⟨by simp [orderFrame], by simp [boundaryOrder], by simp⟩

theorem oselDeasserted : Statement .oselDeasserted := by
  intro _
  exact ⟨by simp [orderFrame], by simp [boundaryOrder], by simp⟩

theorem configure (p : List Byte) (c : Half) : Statement (.configure p c) := by
  intro h
  refine ⟨?_, by simp [boundaryOrder], by simp⟩
  intro k q hq
  simp only [orderFrame, Option.some.injEq, Prod.mk.injEq] at hq
  obtain ⟨rfl, rfl⟩ := hq
  exact ⟨by simpa [Instr.wellFormed, payloadFits] using h, by simp [orderKindCodes, OrderKind.code]⟩

theorem plan (p : List Byte) (c : Half) : Statement (.plan p c) := by
  intro h
  refine ⟨?_, by simp [boundaryOrder], by simp⟩
  intro k q hq
  simp only [orderFrame, Option.some.injEq, Prod.mk.injEq] at hq
  obtain ⟨rfl, rfl⟩ := hq
  exact ⟨by simpa [Instr.wellFormed, payloadFits] using h, by simp [orderKindCodes, OrderKind.code]⟩

theorem amend (p : List Byte) (c : Half) : Statement (.amend p c) := by
  intro h
  refine ⟨?_, by simp [boundaryOrder], by simp⟩
  intro k q hq
  simp only [orderFrame, Option.some.injEq, Prod.mk.injEq] at hq
  obtain ⟨rfl, rfl⟩ := hq
  exact ⟨by simpa [Instr.wellFormed, payloadFits] using h, by simp [orderKindCodes, OrderKind.code]⟩

theorem cancel (p : List Byte) (c : Half) : Statement (.cancel p c) := by
  intro h
  refine ⟨?_, by simp [boundaryOrder], by simp⟩
  intro k q hq
  simp only [orderFrame, Option.some.injEq, Prod.mk.injEq] at hq
  obtain ⟨rfl, rfl⟩ := hq
  exact ⟨by simpa [Instr.wellFormed, payloadFits] using h, by simp [orderKindCodes, OrderKind.code]⟩

theorem withdrawAll (p : List Byte) (c : Half) : Statement (.withdrawAll p c) := by
  intro h
  refine ⟨?_, by simp [boundaryOrder], by simp⟩
  intro k q hq
  simp only [orderFrame, Option.some.injEq, Prod.mk.injEq] at hq
  obtain ⟨rfl, rfl⟩ := hq
  exact ⟨by simpa [Instr.wellFormed, payloadFits] using h, by simp [orderKindCodes, OrderKind.code]⟩

theorem layout (p : List Byte) (c : Half) : Statement (.layout p c) := by
  intro h
  refine ⟨?_, by simp [boundaryOrder], by simp⟩
  intro k q hq
  simp only [orderFrame, Option.some.injEq, Prod.mk.injEq] at hq
  obtain ⟨rfl, rfl⟩ := hq
  exact ⟨by simpa [Instr.wellFormed, payloadFits] using h, by simp [orderKindCodes, OrderKind.code]⟩

theorem resumeFetch (p : List Byte) (c : Half) : Statement (.resumeFetch p c) := by
  intro h
  refine ⟨?_, by simp [boundaryOrder], by simp⟩
  intro k q hq
  simp only [orderFrame, Option.some.injEq, Prod.mk.injEq] at hq
  obtain ⟨rfl, rfl⟩ := hq
  exact ⟨by simpa [Instr.wellFormed, payloadFits] using h, by simp [orderKindCodes, OrderKind.code]⟩

theorem queryStatus (p : List Byte) (c : Half) : Statement (.queryStatus p c) := by
  intro h
  refine ⟨?_, by simp [boundaryOrder], by simp⟩
  intro k q hq
  simp only [orderFrame, Option.some.injEq, Prod.mk.injEq] at hq
  obtain ⟨rfl, rfl⟩ := hq
  exact ⟨by simpa [Instr.wellFormed, payloadFits] using h, by simp [orderKindCodes, OrderKind.code]⟩

theorem queryJunction (p : List Byte) (c : Half) : Statement (.queryJunction p c) := by
  intro h
  refine ⟨?_, by simp [boundaryOrder], by simp⟩
  intro k q hq
  simp only [orderFrame, Option.some.injEq, Prod.mk.injEq] at hq
  obtain ⟨rfl, rfl⟩ := hq
  exact ⟨by simpa [Instr.wellFormed, payloadFits] using h, by simp [orderKindCodes, OrderKind.code]⟩

theorem queryMirror (p : List Byte) (c : Half) : Statement (.queryMirror p c) := by
  intro h
  refine ⟨?_, by simp [boundaryOrder], by simp⟩
  intro k q hq
  simp only [orderFrame, Option.some.injEq, Prod.mk.injEq] at hq
  obtain ⟨rfl, rfl⟩ := hq
  exact ⟨by simpa [Instr.wellFormed, payloadFits] using h, by simp [orderKindCodes, OrderKind.code]⟩

theorem readEvents (p : List Byte) (c : Half) : Statement (.readEvents p c) := by
  intro h
  refine ⟨?_, by simp [boundaryOrder], by simp⟩
  intro k q hq
  simp only [orderFrame, Option.some.injEq, Prod.mk.injEq] at hq
  obtain ⟨rfl, rfl⟩ := hq
  exact ⟨by simpa [Instr.wellFormed, payloadFits] using h, by simp [orderKindCodes, OrderKind.code]⟩

theorem clearAlarm (p : List Byte) (c : Half) : Statement (.clearAlarm p c) := by
  intro h
  refine ⟨?_, by simp [boundaryOrder], by simp⟩
  intro k q hq
  simp only [orderFrame, Option.some.injEq, Prod.mk.injEq] at hq
  obtain ⟨rfl, rfl⟩ := hq
  exact ⟨by simpa [Instr.wellFormed, payloadFits] using h, by simp [orderKindCodes, OrderKind.code]⟩

theorem oselAsserted : Statement .oselAsserted := by
  intro _
  exact ⟨by simp [orderFrame], by simp [boundaryOrder], by simp⟩

theorem unknownOrderKind (k : Byte) (p : List Byte) (c : Half) : Statement (.unknownOrderKind k p c) := by
  intro h
  simp only [Instr.wellFormed, payloadFits, Bool.and_eq_true, decide_eq_true_eq, Bool.not_eq_true',
    List.contains_eq_mem, decide_eq_false_iff_not] at h
  refine ⟨?_, by simp [boundaryOrder], by simp⟩
  intro j q hq
  simp only [orderFrame, Option.some.injEq, Prod.mk.injEq] at hq
  obtain ⟨rfl, rfl⟩ := hq
  exact ⟨h.1, by simp [h.2]⟩

theorem ownSlotStart : Statement .ownSlotStart := by
  intro _
  exact ⟨by simp [orderFrame], by simp [boundaryOrder], by simp⟩

end CommandBounds

end Sys2Proof.Laws
end

