-- ==== Sys2Proof/Laws/Records.lean ====
section
/-! SUPPORT. What the shared operations on records, own claims and events do to a lookup: changing, dropping and
ending, and the events that an operation posts. -/

namespace Sys2Proof.Machine

/-! ### Lookups -/

/-- A search that a change of the elements does not disturb. -/
theorem find?_map_of_invariant {α : Type} (l : List α) (p : α → Bool) (f : α → α) (h : ∀ a, p (f a) = p a) :
    (l.map f).find? p = (l.find? p).map f := by
  induction l with
  | nil => rfl
  | cons a l ih =>
    simp only [List.map_cons, List.find?_cons, h]
    cases p a <;> simp [ih]

/-- A search among elements of which none that is sought has left. -/
theorem find?_filter_of_imp {α : Type} (l : List α) (p q : α → Bool) (h : ∀ a, p a = true → q a = true) :
    (l.filter q).find? p = l.find? p := by
  induction l with
  | nil => rfl
  | cons a l ih =>
    cases hq : q a
    · have hp : p a = false := by
        cases hp : p a
        · rfl
        · rw [h a hp] at hq; cases hq
      rw [List.filter_cons_of_neg (by simp [hq]), List.find?_cons_of_neg (by simp [hp]), ih]
    · rw [List.filter_cons_of_pos hq, List.find?_cons, List.find?_cons, ih]

theorem State.junction?_updateJunction {s : State} {n : JunctionNumber} {r : Junction} {f : Junction → Junction}
    (h : s.junction? n = some r) (hf : ∀ r, (f r).number = r.number) :
    (s.updateJunction n f).junction? n = some (f r) := by
  have hn := (State.junction?_mem h).2
  unfold State.junction? at h ⊢
  rw [State.updateJunction_table, find?_map_of_invariant _ _ _ (fun a => by split <;> simp [hf]), h]
  simp [hn]

theorem State.claim?_isOf {s : State} {n : JunctionNumber} {role : ClaimRole} {k : OwnClaim}
    (h : s.claim? n role = some k) : k.isOf n role = true :=
  List.find?_some (p := fun c => OwnClaim.isOf c n role) h

theorem State.claim?_updateClaim {s : State} {n : JunctionNumber} {role : ClaimRole} {k : OwnClaim}
    {f : OwnClaim → OwnClaim} (h : s.claim? n role = some k) (hf : ∀ k, (f k).isOf n role = k.isOf n role) :
    (s.updateClaim n role f).claim? n role = some (f k) := by
  have hk := State.claim?_isOf h
  unfold State.claim? at h ⊢
  simp only [State.updateClaim]
  rw [find?_map_of_invariant _ _ _ (fun a => by split <;> simp [hf]), h]
  simp [hk]

theorem State.claim?_updateClaim_other {s : State} {n m : JunctionNumber} {role role' : ClaimRole}
    {f : OwnClaim → OwnClaim} (hf : ∀ k, (f k).isOf m role' = k.isOf m role') (hne : (m, role') ≠ (n, role)) :
    (s.updateClaim n role f).claim? m role' = s.claim? m role' := by
  unfold State.claim?
  simp only [State.updateClaim]
  rw [find?_map_of_invariant _ _ _ (fun a => by split <;> simp [hf])]
  cases h : s.publisher.claims.find? (fun c => c.isOf m role') with
  | none => rfl
  | some k =>
    have hk : k.isOf m role' = true :=
      List.find?_some (p := fun c => OwnClaim.isOf c m role') h
    have : k.isOf n role = false := by
      by_contra hc
      simp only [OwnClaim.isOf, Bool.not_eq_false, Bool.and_eq_true, beq_iff_eq] at hk hc
      exact hne (by rw [← hk.1, ← hk.2, ← hc.1, ← hc.2])
    simp [this]

theorem State.claim?_dropClaim (s : State) (n : JunctionNumber) (role : ClaimRole) :
    (s.dropClaim n role).claim? n role = none := by
  unfold State.claim?
  simp only [State.dropClaim, List.find?_eq_none, List.mem_filter]
  rintro k ⟨-, h⟩
  simpa using h

theorem State.claim?_dropClaim_other (s : State) {n m : JunctionNumber} {role role' : ClaimRole}
    (hne : (m, role') ≠ (n, role)) : (s.dropClaim n role).claim? m role' = s.claim? m role' := by
  unfold State.claim?
  simp only [State.dropClaim]
  refine find?_filter_of_imp _ _ _ (fun k hk => ?_)
  simp only [OwnClaim.isOf, Bool.and_eq_true, beq_iff_eq] at hk
  by_contra hc
  simp only [OwnClaim.isOf, Bool.not_eq_true, Bool.not_eq_false', Bool.and_eq_true, beq_iff_eq] at hc
  exact hne (by rw [← hk.1, ← hk.2, ← hc.1, ← hc.2])

/-! ### Events -/

theorem State.post_posted (s : State) (k : EventKind) (j : Option JunctionNumber) (c v : BitVec 24) :
    s.Posted (s.post k j c v) k j c v := by
  intro h
  have h' : s.reporting.events.length < eventCapacity := h
  simp only [State.post_reporting, Reporting.post, h', if_true]

/-- An event that stands in the queue of a state with the reporting items of another. -/
theorem State.Posted.of_eq {s s' t : State} {k : EventKind} {j : Option JunctionNumber} {c v : BitVec 24}
    (h : s'.Posted t k j c v) (hr : s'.reporting = s.reporting) (ht : s'.hf = s.hf) : s.Posted t k j c v := by
  intro hl
  rw [← hr] at hl
  have := h hl
  rw [hr, ht] at this
  exact this

theorem Acts.sameAround {s t : State} (h : Acts s t) : s.SameAround t := ⟨h.config, h.exchange, h.pins, h.pending⟩

theorem Acts.hf {s t : State} (h : Acts s t) : t.hf = s.hf := by rw [State.hf, State.hf, h.timing]

theorem Acts.lead {s t : State} (h : Acts s t) : t.lead = s.lead := by rw [State.lead, State.lead, h.config]

/-! ### The lapse of a pending amendment (R88) -/

theorem State.lapse_spec {s : State} {n : JunctionNumber} {r : Junction} (cause : LapseCause)
    (h : s.junction? n = some r) :
    (s.lapse n cause).junction? n = some { r with pending := none } ∧
      (s.lapse n cause).claim? n .secondary = none ∧
      (s.lapse n cause).claim? n .record = s.claim? n .record ∧
      s.Posted (s.lapse n cause) .amendLapsed (some n) (detailOf cause.code) 0 := by
  refine ⟨?_, ?_, ?_, ?_⟩
  · exact State.junction?_updateJunction (f := fun r => { r with pending := none }) h (fun _ => rfl)
  · exact State.claim?_dropClaim _ _ _
  · exact State.claim?_dropClaim_other (s.updateJunction n (fun r => { r with pending := none }))
      (by simp : (n, ClaimRole.record) ≠ (n, .secondary))
  · exact State.post_posted _ _ _ _ _

/-! ### The ring's on-air items -/

/-- A ring that differs from `r` in its slots and their order alone. -/
def Ring.SlotsMoved (r r' : Ring) : Prop := r' = { r with slots := r'.slots, order := r'.order }

theorem Ring.SlotsMoved.refl (r : Ring) : r.SlotsMoved r := rfl

theorem Ring.SlotsMoved.trans {a b c : Ring} (h : a.SlotsMoved b) (g : b.SlotsMoved c) : a.SlotsMoved c := by
  unfold Ring.SlotsMoved at *
  rw [g, h]

theorem State.beginFrame_moves (s : State) : s.ring.SlotsMoved s.beginFrame.ring := by
  unfold State.beginFrame
  split
  · split <;> rfl
  · rfl

theorem State.orphanWhere_moves (s : State) (p : Request → Bool) : s.ring.SlotsMoved (s.orphanWhere p).ring := by
  unfold State.orphanWhere State.orphanRequest
  repeat' split
  all_goals rfl

theorem State.freeSlots_moves (s : State) (p : RingSlot → Bool) : s.ring.SlotsMoved (s.freeSlots p).ring := rfl

theorem State.dropFetch_moves (s : State) (n : JunctionNumber) : s.ring.SlotsMoved (s.dropFetch n).ring :=
  Ring.SlotsMoved.trans (State.freeSlots_moves s _) (State.orphanWhere_moves _ _)

theorem State.limitNeeded_moves (s : State) (j : JunctionNumber) (n : Nat) :
    s.ring.SlotsMoved (s.limitNeeded j n).ring := by
  unfold State.limitNeeded
  split
  · rfl
  · refine Ring.SlotsMoved.trans ?_ (State.beginFrame_moves _)
    exact Ring.SlotsMoved.trans (State.freeSlots_moves s _) (State.orphanWhere_moves _ _)

theorem State.endRecord_moves (s : State) (n : JunctionNumber) (e : Ending) :
    s.ring.SlotsMoved (s.endRecord n e).ring := by
  unfold State.endRecord
  split
  · rfl
  · refine Ring.SlotsMoved.trans ?_ (State.beginFrame_moves _)
    simp only [State.postEnd]
    exact State.dropFetch_moves _ n

/-! ### Orphaning a request touches the engine and the slots -/

theorem State.orphanRequest_eq (s : State) : s.orphanRequest =
    { s with engine := s.orphanRequest.engine, ring := s.orphanRequest.ring } := by
  unfold State.orphanRequest
  split
  · rfl
  · split
    · rfl
    · dsimp only
      split <;> rfl

theorem State.orphanWhere_eq (s : State) (p : Request → Bool) : s.orphanWhere p =
    { s with engine := (s.orphanWhere p).engine, ring := (s.orphanWhere p).ring } := by
  unfold State.orphanWhere
  split
  · split
    · exact State.orphanRequest_eq s
    · rfl
  · rfl

theorem State.dropFetch_eq (s : State) (n : JunctionNumber) : s.dropFetch n =
    { s with engine := (s.dropFetch n).engine, ring := (s.dropFetch n).ring } := by
  unfold State.dropFetch
  dsimp only
  rw [State.orphanWhere_eq]
  rfl

/-- A fall of the needed count touches the engine and the slots alone (R161). -/
theorem State.limitNeeded_eq (s : State) (j : JunctionNumber) (n : Nat) : s.limitNeeded j n =
    { s with engine := (s.limitNeeded j n).engine, ring := (s.limitNeeded j n).ring } := by
  unfold State.limitNeeded
  split
  · rfl
  · dsimp only
    rw [State.beginFrame_eq, State.orphanWhere_eq]
    rfl

theorem State.orphanWhere_entries (s : State) (p : Request → Bool) :
    (s.orphanWhere p).engine.entries = s.engine.entries := by
  unfold State.orphanWhere State.orphanRequest
  repeat' split
  all_goals rfl

/-- No more than `n` frames are needed of a junction after its needed count has fallen to `n` (R161). -/
theorem State.limitNeeded_needed {s : State} {j : JunctionNumber} {n : Nat} {e : FetchEntry}
    (he : e ∈ (s.limitNeeded j n).engine.entries) (hj : e.junction = j) : e.needed ≤ n := by
  unfold State.limitNeeded at he
  split at he
  · next h => exact absurd (List.find?_eq_none.1 h e he) (by simp [hj])
  · dsimp only at he
    obtain ⟨e', h1, h2⟩ := State.beginFrame_entries he
    rw [State.orphanWhere_entries] at h1
    obtain ⟨e0, -, h4⟩ := List.mem_map.1 h1
    split at h4
    · rw [← h2.2, ← h4]
      exact min_le_right _ _
    · subst h4
      rw [← h2.1] at hj
      simp_all

/-! ### The end of a record (R40) -/

theorem removeNumber_map (n : JunctionNumber) (t : List Junction) {f : Junction → Junction}
    (hf : ∀ r, (f r).number = r.number) :
    removeNumber n (t.map (fun r => if r.number == n then f r else r)) = removeNumber n t := by
  unfold removeNumber
  induction t with
  | nil => rfl
  | cons r t ih =>
    rw [List.map_cons]
    by_cases h : r.number = n
    · rw [List.filter_cons_of_neg (by simp [h, hf]), List.filter_cons_of_neg (by simp [h]), ih]
    · rw [List.filter_cons_of_pos (by simp [h]), List.filter_cons_of_pos (by simp [h]), ih]
      simp [h]

/-- A record that ends leaves the table with its claims, its end is posted, and only the engine and the slots change
besides. -/
theorem State.endRecord_spec {s : State} {n : JunctionNumber} {r : Junction} (e : Ending)
    (h : s.junction? n = some r) :
    s.endRecord n e = { s with
        table := removeNumber n s.table, publisher := (s.dropClaims n).publisher,
        engine := (s.endRecord n e).engine, ring := (s.endRecord n e).ring,
        reporting := (s.post .junctionEnd (some n) e.code (r.endValue s.lead)).reporting } := by
  have hn := (State.junction?_mem h).2
  unfold State.endRecord
  rw [h]
  dsimp only
  rw [State.beginFrame_eq, State.dropFetch_eq]
  simp only [State.postEnd, hn]
  rfl

theorem State.endRecord_posted {s : State} {n : JunctionNumber} {r : Junction} (e : Ending)
    (h : s.junction? n = some r) :
    s.Posted (s.endRecord n e) .junctionEnd (some n) e.code (r.actualFirst.getD (r.fields.commitFrame s.lead)) := by
  intro hl
  rw [State.endRecord_spec e h]
  have := State.post_posted s .junctionEnd (some n) e.code (r.endValue s.lead) hl
  dsimp only at this ⊢
  rw [this, Junction.endValue]
  cases r.actualFirst <;> rfl

end Sys2Proof.Machine
end

