-- ==== Sys2Proof/Laws/Sequencer.lean ====
section
/-! SUPPORT. What the operations of the Junction Sequencer do: cue points and pulse returns, the store's loads, the
advance by phase, starts, releases and the end of a junction. -/

namespace Sys2Proof.Machine

/-! ### Cue points and pulse returns (R116, R134, R135) -/

/-- A sequencer that differs from `q` in the lines and the pulse returns alone. -/
def Sequencer.LinesMoved (q q' : Sequencer) : Prop := q' = { q with lines := q'.lines, pulse := q'.pulse }

theorem Sequencer.LinesMoved.refl (q : Sequencer) : q.LinesMoved q := rfl

theorem Sequencer.LinesMoved.trans {a b c : Sequencer} (h : a.LinesMoved b) (g : b.LinesMoved c) :
    a.LinesMoved c := by
  unfold Sequencer.LinesMoved at *
  rw [g, h]

theorem Sequencer.act_moves (q : Sequencer) (rest : Level) (i : Fin 4) (a : CueAction) :
    q.LinesMoved (q.act rest i a) := by cases a <;> rfl

/-- The cue points of an offset, applied in list order. -/
def Sequencer.cued (q : Sequencer) (rest : Fin 4 → Level) (cs : List CuePoint) (j : Nat) : Sequencer :=
  (cs.filter (fun p => p.offset == j)).foldl (fun q p => q.act (rest p.line) p.line p.action) q

theorem Sequencer.cued_moves (q : Sequencer) (rest : Fin 4 → Level) (cs : List CuePoint) (j : Nat) :
    q.LinesMoved (q.cued rest cs j) := by
  unfold Sequencer.cued
  induction cs.filter (fun p => p.offset == j) generalizing q with
  | nil => exact Sequencer.LinesMoved.refl q
  | cons p ps ih => exact (Sequencer.act_moves q _ _ _).trans (ih _)

theorem State.applyCues_eq (s : State) (j : Nat) (cs : List CuePoint) :
    s.applyCues j cs = { s with sequencer := s.sequencer.cued s.restLevel cs j } := by
  unfold Sequencer.cued
  induction cs generalizing s with
  | nil => rfl
  | cons c cs ih =>
    unfold State.applyCues
    by_cases h : c.offset = j
    · rw [if_pos h, ih, List.filter_cons_of_pos (by simp [h])]
      rfl
    · rw [if_neg h, ih, List.filter_cons_of_neg (by simp [h])]

theorem State.returnLine_eq (s : State) (i : Fin 4) :
    ∃ q, s.returnLine i = { s with sequencer := q } ∧ s.sequencer.LinesMoved q := by
  unfold State.returnLine
  split
  · exact ⟨_, rfl, rfl⟩
  · exact ⟨_, rfl, Sequencer.LinesMoved.refl _⟩

theorem State.pulseReturns_eq (s : State) :
    s.pulseReturns = { s with sequencer := s.pulseReturns.sequencer } ∧
      s.sequencer.LinesMoved s.pulseReturns.sequencer := by
  obtain ⟨a, ha, ma⟩ := s.returnLine_eq 0
  obtain ⟨b, hb, mb⟩ := (s.returnLine 0).returnLine_eq 1
  obtain ⟨c, hc, mc⟩ := ((s.returnLine 0).returnLine 1).returnLine_eq 2
  obtain ⟨d, hd, md⟩ := (((s.returnLine 0).returnLine 1).returnLine 2).returnLine_eq 3
  have h : s.pulseReturns = { s with sequencer := d } := by
    unfold State.pulseReturns
    rw [hd, hc, hb, ha]
  rw [ha] at mb
  rw [hb, ha] at mc
  rw [hc, hb, ha] at md
  rw [h]
  exact ⟨rfl, ma.trans (mb.trans (mc.trans md))⟩

/-- The cue points of an offset read the lines and the pulse returns alone. -/
theorem Sequencer.cued_congr {q q' : Sequencer} (rest : Fin 4 → Level) (cs : List CuePoint) (j : Nat)
    (hl : q.lines = q'.lines) (hp : q.pulse = q'.pulse) :
    (q.cued rest cs j).lines = (q'.cued rest cs j).lines ∧ (q.cued rest cs j).pulse = (q'.cued rest cs j).pulse := by
  unfold Sequencer.cued
  induction cs.filter (fun p => p.offset == j) generalizing q q' with
  | nil => exact ⟨hl, hp⟩
  | cons p ps ih =>
    rw [List.foldl_cons, List.foldl_cons]
    exact ih (by cases p.action <;> simp [Sequencer.act, Sequencer.drive, hl])
      (by cases p.action <;> simp [Sequencer.act, Sequencer.drive, hp])

/-! ### The advance (R116) -/

/-- The sequencer of an advance before its phase steps: the pulse returns made, j gone up by 1, and the cue points of
the new j applied (R116, R134). -/
def State.advanced (s : State) (cs : List CuePoint) : Sequencer :=
  ({ s.pulseReturns.sequencer with frameCounter := s.sequencer.frameCounter + 1 }).cued s.restLevel cs
    (s.sequencer.frameCounter + 1)

theorem State.advanced_moves (s : State) (cs : List CuePoint) : s.advanced cs =
    { s.sequencer with
      frameCounter := s.sequencer.frameCounter + 1
      lines := (s.advanced cs).lines, pulse := (s.advanced cs).pulse } := by
  have h : s.pulseReturns.sequencer = _ := s.pulseReturns_eq.2
  have g : s.advanced cs = { s.pulseReturns.sequencer with
      frameCounter := s.sequencer.frameCounter + 1
      lines := (s.advanced cs).lines, pulse := (s.advanced cs).pulse } :=
    Sequencer.cued_moves _ s.restLevel cs (s.sequencer.frameCounter + 1)
  refine g.trans ?_
  rw [h]

theorem State.advance_eq {s : State} {r : Junction} (hr : s.junction? r.number = some r)
    (ha : s.sequencer.onAir = some r.number) (hf : s.sequencer.fresh = false) :
    s.advance = ({ s with sequencer := s.advanced r.fields.cues }).stepPhase r := by
  unfold State.advance
  simp only [ha, hf, hr, Bool.false_eq_true, if_false]
  rw [State.applyCues_eq, s.pulseReturns_eq.1]
  have hc : s.pulseReturns.sequencer.frameCounter = s.sequencer.frameCounter :=
    congrArg (·.frameCounter) s.pulseReturns_eq.2
  rw [hc]
  rfl

/-! ### Loads of the Layout Store (R145 to R148) -/

theorem State.loadLayout_eq (s : State) (cause : Byte) (j : Option JunctionNumber) : s.loadLayout cause j = { s with
    layouts := { s.layouts with active := s.layouts.active.other, staged := none }
    reporting := (s.post .layoutLoaded j (detailOf cause) (detailOf s.layouts.active.other.code)).reporting } := rfl

/-- The loads of a start read the layouts, the events and HF alone. -/
theorem State.startLayouts_eq (s : State) (r : Junction) : s.startLayouts r =
    { s with layouts := (s.startLayouts r).layouts, reporting := (s.startLayouts r).reporting } := by
  unfold State.startLayouts State.loadAtStart State.dropStaged State.rampEndNotice
  dsimp only
  repeat' split
  all_goals rfl

/-! ### The end of a junction (R132, R149, R176) -/

theorem State.endOnAir_spec {s : State} {r : Junction} {why : Reason} (h : s.junction? r.number = some r)
    (ha : s.sequencer.onAir = some r.number) (hr : s.sequencer.reason = some why) :
    s.OffAir s.endOnAir ∧ s.endOnAir.table = removeNumber r.number s.table := by
  let u : State := ({ s with
    sequencer := s.sequencerAtRest, ring := s.ring.offAir, compositor := .passThrough }).post .promoCounts
      (some r.number) (detailNat s.ring.drops) (detailNat s.ring.slips)
  have hu : s.endOnAir = u.endRecord r.number (endingOf why) := by simp only [State.endOnAir, ha, hr]; rfl
  have hj : u.junction? r.number = some r := h
  rw [hu, State.endRecord_spec _ hj]
  refine ⟨⟨rfl, fun i => ?_, ?_, rfl⟩, rfl⟩
  · show s.restLevels.get i = s.restLevel i
    fin_cases i <;> rfl
  · exact (Ring.SlotsMoved.trans (a := Ring.reset) (b := u.ring) rfl (State.endRecord_moves u _ _))

end Sys2Proof.Machine
end

