-- ==== Sys2Proof/Tests/Slice0.lean ====
section
/-! SUPPORT. Tests on worked values of the manual, the smoke test of WellFormed, and a witness for the hypotheses of
each statement. -/

namespace Sys2Proof.Tests

open Sys2Proof.Machine

/-! ### WellFormed refuses each ill-formed term -/

theorem test_wellFormed_long_payload_refused :
    (Instr.plan (List.replicate 256 0) 0).wellFormed = false ∧
      (Instr.plan (List.replicate 255 0) 0).wellFormed = true := by decide +kernel

theorem test_wellFormed_short_block_refused : (Instr.storeBlock 0 0 [1, 2] 3).wellFormed = false := by decide

theorem test_wellFormed_doubled_block_order_refused :
    (Instr.referenceWindowClose { ops := [.ring, .ring], storeFirst := false }).wellFormed = false := by decide

theorem test_wellFormed_known_kind_refused :
    (Instr.unknownOrderKind 5 [] 0).wellFormed = false ∧
      (Instr.unknownOrderKind 8 [] 0).wellFormed = true := by decide

/-! ### Small states -/

/-- A group of 4 with C = 1 and S = 3 and station 3, as in Section 2.9, with L = 50. -/
def cfg : Configuration where
  station := 3
  slots := 4
  concurrency := 1
  settle := 3
  horizon := 5000
  lead := 50
  depth := 4
  roles := ⟨.start, .release, .unused, .start⟩
  edges := ⟨.rising, .falling, .rising, .rising⟩
  startCode := 0x1234
  releaseCode := 0x5678
  rests := ⟨.low, .high, .low, .low⟩

/-- LOCKED at an HF, with a 20.0 ms period. -/
def lockedAt (hf : Frame) : Timing :=
  { Timing.reset with
    refState := .locked, hf := hf, hfValid := true, period := some 20000000, basis := 1000000000,
    trackRun := 3, trackLast := some hf, trackFresh := true }

/-- HOLDOVER at an HF, its next expiry one period after the basis. -/
def holdoverAt (hf : Frame) : Timing :=
  { lockedAt hf with refState := .holdover, freeRun := some 1020000000 }

/-- A part that is configured, in a station state. -/
def part (t : Timing) (st : StationState) : State :=
  { State.reset with
    config := some cfg, timing := t
    bus := { CueBus.reset with station := st, digest := some cfg.digest }
    ring := { Ring.reset with slots := List.replicate 4 none } }

/-- Part of a cycle of frame `hf` whose next slot is `n`. -/
def inSlot (s : State) (n : Nat) : State :=
  { s with bus := { s.bus with
      cycle := some { hf := s.timing.hf, basis := s.timing.basis, period := 20000000, nextSlot := n } } }

/-- Junction 11 of Section 3.10: TIMED at 101,000, claim interval [101,000, 101,800). -/
def fields11 : FieldSet where
  trigger := .timed
  source := none
  snom := 101000
  early := 0
  rin := 25
  hold := 750
  minHold := 500
  rout := 25
  fallback := none
  primary := { clip := 7, campaign := 3, length := 800 }
  alternate := some { clip := 8, campaign := 4, length := 900 }
  layout := none
  cues := []

/-- Junction 12 of Section 3.10: MARKED on a line, Snom 103,000, E 100. -/
def fields12 : FieldSet where
  trigger := .marked
  source := some .mk0
  snom := 103000
  early := 100
  rin := 25
  hold := 1500
  minHold := 1000
  rout := 25
  fallback := some .abandon
  primary := { clip := 9, campaign := 0, length := 2000 }
  alternate := none
  layout := none
  cues := []

/-- Junction 11 in a state. -/
def junction11 (st : RecordState) : Junction := { plannedRecord 11 fields11 with state := st }

/-- An own claim of junction 11. -/
def claim11 (cls : ClaimClass) (settle : Option Nat) : OwnClaim :=
  { (junction11 .planned).newClaim with
    tag := some 5, cls := cls, posted := some 99000, settle := settle, mark := false }

/-- A MEMBER part at 100,000 with junction 11 in a state and its claim. -/
def withJunction (st : RecordState) (cls : ClaimClass) (settle : Option Nat) : State :=
  { part (lockedAt 100000) .member with
    table := [junction11 st]
    publisher := { Publisher.reset with claims := [claim11 cls settle] } }

/-- A request for clip frame 7 of junction 11 on the link. -/
def request11 : Request :=
  { junction := 11, clip := 7, index := 7, first := 0, count := 135, orphaned := false }

/-- A PRIMED junction 11 whose frame 7 is being fetched into slot 0. -/
def fetching (st : EngineState) (expect : Nat) : State :=
  { withJunction .primed .locked none with
    engine := { Engine.reset with
      state := st, request := some request11, expect := expect
      entries := [{ junction := 11, clip := 7, needed := 800, fetchIndex := 8 }] }
    ring := { Ring.reset with
      slots := [some { state := .filling, junction := 11, index := 7, blocks := 0, data := [] }, none, none,
        none]
      order := [0] } }

/-- Junction 11 on air, in a phase. -/
def onAir (ph : Phase) (st : RecordState) (reason : Option Reason) : State :=
  { withJunction st .onAir none with
    sequencer := { Sequencer.reset with
      onAir := some 11, phase := ph, first := some 101000, hold := some 750, ramp := 25, holdLeft := 5,
      releaseLeft := 5, reason := reason }
    ring := { Ring.reset with slots := [none, none, none, none], onAir := some 11, next := 1 }
    compositor := .junction }

/-- An exchange whose order frame is being read. -/
def reading (s : State) : State := { s with exchange := .reading }

/-- An order of `n` blocks at a boundary that names none. -/
def anyOrder : BoundaryOrder := { ops := [], storeFirst := false }

/-- The state that a command leads to. -/
def after (c : Instr) (s : State) : State :=
  match exec c s with
  | .next t => t
  | .fault _ => s
  | .refused _ => s

/-! ### Worked values of the manual -/

/-- R195: the nine bytes of values 49 to 57 give 10,673. -/
theorem test_crc_of_nine_bytes : (crc16 [49, 50, 51, 52, 53, 54, 55, 56, 57]).toNat = 10673 := by
  decide +kernel

/-- Section 3.10: the derived frames of junctions 11 and 12. -/
theorem test_derived_frames :
    fields11.claimEnd = 101800 ∧ fields11.latestStart = 101250 ∧ fields11.commitFrame 50 = 100950 ∧
      fields12.claimStart = 102900 ∧ fields12.claimEnd = 104550 ∧ fields12.latestStart = 103500 ∧
      fields12.commitFrame 50 = 102850 := by decide

/-- Section 1.10: the fourth pulse, in window after three clean words, locks at 41,000. -/
theorem test_lock_pulse :
    let s := { State.reset with timing :=
      { Timing.reset with
        pulseRun := 3, runPeriod := some 20000000, lastPulse := 60000000, trackRun := 3,
        trackLast := some 41000, trackFresh := true } }
    let t := (after (.referencePulse 80000000 anyOrder) s).timing
    t.refState = .locked ∧ t.hf = 41000 ∧ t.period = some 20000000 ∧ t.pulseRun = 0 := by decide +kernel

/-- R9: the second missing pulse in a row loses the reference and raises REFERENCE_LOST. -/
theorem test_reference_lost :
    let s := { part { lockedAt 2000011 with missing := 1 } .member with publisher := Publisher.reset }
    let t := after (.referenceWindowClose anyOrder) s
    t.timing.refState = .holdover ∧ t.timing.hf = 2000012 ∧ t.bus.station = .silentReference ∧
      t.reporting.alarms.referenceLost.flag = true := by decide +kernel

/-- R12: an expiry of the free-run timer counts one frame. -/
theorem test_free_run_counts :
    (after (.freeRunExpiry anyOrder) (part (holdoverAt 2000012) .silentReference)).timing.hf = 2000013 := by
  decide +kernel

/-- Section 2.9, "A peer is lost": the eighth missed slot makes station 1 ABSENT. -/
theorem test_peer_lost :
    let s := inSlot (part (lockedAt 5107) .member) 1
    let e : PresenceEntry :=
      { PresenceEntry.reset with state := .present, missed := 7, corrupt := 1, silent := 6 }
    let t := after (.slotEnd .noCarrier) { s with bus := s.bus.setEntry 1 e }
    (t.bus.entry 1).state = .absent ∧ (t.bus.entry 1).silent = 7 ∧
      t.reporting.events.map (·.kind) = [.stationAbsent] := by decide +kernel

/-- Section 2.9: the eighth close of LISTENING makes the station MEMBER, with its first beacon formed. -/
theorem test_eighth_close :
    let s := inSlot (part (lockedAt 5008) .listening) 4
    let t := after .cycleClose { s with bus := { s.bus with listening := 7 } }
    t.bus.station = .member ∧ t.bus.listening = 8 ∧ (t.bus.entry 3).state = .present ∧
      t.bus.held.map (·.bitmap) = some 8 := by decide +kernel

/-- R102: an active edge on a START line takes a capture of the current frame. -/
theorem test_line_capture :
    (after (.lineEdgeSettled 0 .high) (part (lockedAt 500) .member)).markers.starts.mk0 =
      some { source := .mk0, captureFrame := 500, availability := 500, overwrite := false } := by
  decide +kernel

/-- R166: the eighth RETRY gives the frame up, with a STALL event RETRY_LIMIT for its index. -/
theorem test_retry_limit :
    let s := fetching .requesting 0
    let t := after .storeRetry { s with engine := { s.engine with retry := 7 } }
    t.reporting.events.map (fun e => (e.kind, e.code, e.value)) = [(.stall, 2, 7)] ∧
      (t.ring.slots[0]?.bind id).map (·.state) = some .damaged := by decide +kernel

/-- R129: a reversal from p = 10 with Rin 25 and Rout 20 runs floor(10 × 20 / 25) = 8 release frames. -/
theorem test_reversal_load :
    releaseLoad { Sequencer.reset with phase := .squeezeIn, ramp := 10 } { fields11 with rout := 20 } = 8 := by
  decide

/-- R68: with C = 2 two owners that overlap a claim at different frames use one unit of budget at each frame. -/
theorem test_budget_by_frames :
    let k := fun (owner : Nat) (a b : Frame) => ({ owner := owner, claim :=
      { tag := 0, cls := .opened, posted := 0, start := a, stop := b, campaign := 0 } } : OwnedClaim)
    passesBudget 2 [k 0 10 20, k 1 20 30] (k 2 10 30) = true ∧
      passesBudget 2 [k 0 10 21, k 1 20 30] (k 2 10 30) = false := by decide

/-! ### Witnesses: states and operands that meet the hypotheses of the statements -/

theorem witness_StepTakesFrontCommand :
    (∃ (c : Instr) (rest : List Instr) (s : State), s.pending = c :: rest) ∧
      ∃ s : State, s.pending = [] :=
  ⟨⟨.cycleClose, [.reset], { State.reset with pending := [.cycleClose, .reset] }, rfl⟩, State.reset, rfl⟩

theorem lockedAt_sound (hf : Frame) : (lockedAt hf).Sound := by
  constructor <;> simp [lockedAt, Timing.reset]

/-- A step that moves the count track keeps `Timing.Sound` to be kept. -/
theorem witness_TimingSoundKept :
    ∃ s t : State, s.timing.Sound ∧ step s = .next t ∧ t.timing ≠ s.timing :=
  ⟨{ part (lockedAt 9) .member with pending := [.countWord (.good 70)] }, _, lockedAt_sound 9, rfl,
    by decide +kernel⟩

/-- LOCKED at 1,000 with a jump candidate, and perhaps a pending adoption. -/
def jumping (run : Nat) (last : Option Frame) (pend : Option Frame) : Timing :=
  { lockedAt 1000 with jumpRun := run, jumpLast := last, pendingAdoption := pend }

theorem witness_CountWordInLocked :
    (lockedAt 1000).refState = .locked ∧
    (∃ (q : Timing) (v : Frame), q = jumping 1 (some 50) none ∧ v = q.hf + 1) ∧
    (∃ (q : Timing) (v : Frame), q = jumping 2 (some 50) (some 50) ∧ v ≠ q.hf + 1 ∧ Continues q.jumpLast v ∧ q.jumpRun + 1 = 3 ∧
      q.pendingAdoption.isSome) ∧
    (∃ (q : Timing) (v : Frame), q = jumping 1 (some 50) none ∧ v ≠ q.hf + 1 ∧ Continues q.jumpLast v ∧ q.jumpRun + 1 ≠ 3 ∧
      q.pendingAdoption = none) ∧
    ∃ (q : Timing) (v : Frame), q = jumping 0 none none ∧ v ≠ q.hf + 1 ∧ ¬ Continues q.jumpLast v :=
  ⟨rfl, ⟨_, 1001, rfl, by decide⟩,
    ⟨_, 51, rfl, by decide, ⟨50, rfl, by decide⟩, rfl, rfl⟩,
    ⟨_, 51, rfl, by decide, ⟨50, rfl, by decide⟩, by decide, rfl⟩,
    ⟨_, 51, rfl, by decide, by rintro ⟨u, h, -⟩; cases h⟩⟩

theorem witness_EventsOutsideLocked :
    (∃ q : Timing, q.refState ≠ .locked ∧ q.pulseRun = 2) ∧
    (∃ q : Timing, q.refState ≠ .locked ∧ q.pulseRun = 1) ∧
    ∃ (q : Timing) (due : Moment) (p : Nat), q = holdoverAt 5 ∧ q.refState = .holdover ∧ q.freeRun = some due ∧ q.period = some p :=
  ⟨⟨{ Timing.reset with pulseRun := 2, runPeriod := some 20000000 }, by decide, rfl⟩,
    ⟨{ Timing.reset with pulseRun := 1 }, by decide, rfl⟩, _, 1020000000, 20000000, rfl, rfl, rfl, rfl⟩

/-- A run of the given length with a 20.0 ms period, its last pulse at 0. -/
def running (run : Nat) : Timing :=
  { Timing.reset with pulseRun := run, runPeriod := if run < 2 then none else some 20000000 }

/-- The clauses at their boundaries: an interval of 16.0 ms and of 42.0 ms, the first and the last moment of a
window, and the moments beside them. -/
theorem witness_PulseJudgedInRun :
    (∀ n, (running n).refState ≠ .locked) ∧ (running 0).pulseRun = 0 ∧
    ((running 1).pulseRun = 1 ∧ (running 1).runPeriod = none) ∧
    (∀ m ∈ [16000000, 42000000], 16000000 ≤ m - (running 1).lastPulse ∧ m - (running 1).lastPulse ≤ 42000000) ∧
    (∀ m ∈ [15999999, 42000001],
      ¬ (16000000 ≤ m - (running 1).lastPulse ∧ m - (running 1).lastPulse ≤ 42000000)) ∧
    (2 ≤ (running 2).pulseRun ∧ (running 2).runPeriod = some 20000000) ∧
    (∀ m ∈ [19687500, 20312500], InWindow 20000000 (running 2).lastPulse m) ∧
    (∀ m ∈ [19687499, 20312501], ¬ InWindow 20000000 (running 2).lastPulse m) ∧
    (running 4).trackRun ≠ 3 := by
  refine ⟨fun _ => by simp [running, Timing.reset], rfl, ⟨rfl, rfl⟩, by decide, by decide, ⟨by decide, rfl⟩, ?_, ?_,
    by decide⟩ <;> simp [InWindow, running, Timing.reset]

theorem witness_PulseLocksAndRelocks :
    ∃ (q : Timing) (p : Nat) (m : Moment) (v : Frame), InWindow p q.lastPulse m ∧ q = { holdoverAt 1000 with
      pulseRun := 3, runPeriod := some 20000000, lastPulse := 0, trackLast := some 999 } ∧
      q.refState ≠ .locked ∧ 3 ≤ q.pulseRun ∧ q.runPeriod = some p ∧ q.trackRun = 3 ∧ q.trackFresh = true ∧
      q.trackLast = some v ∧ q.refState = .holdover ∧ v ≠ q.hf + 1 :=
  ⟨_, 20000000, 20000000, 999, ⟨by decide, by decide⟩, rfl, by decide, by decide, rfl, rfl, rfl, rfl, rfl,
    by decide⟩

theorem witness_PulseInLocked :
    ∃ q : Timing, q = { lockedAt 1000 with pendingAdoption := some 2000000 } ∧ q.refState = .locked ∧
      q.period = some 20000000 ∧ InWindow 20000000 q.basis 1019687500 ∧
      ¬ InWindow 20000000 q.basis 1019687499 ∧ InWindow 20000000 q.basis 1020312500 ∧
      ¬ InWindow 20000000 q.basis 1020312501 ∧
      ∃ v, q.pendingAdoption = some v ∧ v ≠ q.hf + 1 := by
  refine ⟨_, rfl, rfl, rfl, ?_, ?_, ?_, ?_, 2000000, rfl, by decide⟩ <;> simp [InWindow, lockedAt]

theorem witness_WindowCloseInLocked :
    ∃ q : Timing, q = lockedAt 1000 ∧ q.refState = .locked ∧ q.period = some 20000000 ∧ q.missing = 0 ∧
      ({ q with missing := 1, pendingAdoption := some 7 } : Timing).missing ≠ 0 :=
  ⟨_, rfl, rfl, rfl, rfl, by decide⟩

/-- A run of three pulses, the last at 0, with the count adopted at `v` and fresh. -/
def lockingAt (q : Timing) (v : Frame) : Timing :=
  { q with
    pulseRun := 3, runPeriod := some 20000000, lastPulse := 0, trackRun := 3, trackLast := some v,
    trackFresh := true }

theorem lockingAt_locks (q : Timing) (v : Frame) :
    (lockingAt q v).LocksAt 19687500 20000000 v ∧ (lockingAt q v).LocksAt 20312500 20000000 v := by
  refine ⟨⟨Nat.le_refl 3, rfl, ?_, rfl, rfl, rfl⟩, ⟨Nat.le_refl 3, rfl, ?_, rfl, rfl, rfl⟩⟩ <;>
    simp [InWindow, lockingAt]

theorem witness_BoundaryReachesEveryBlockOnce :
    ∃ (b : Boundary) (o : BoundaryOrder), b.jump = some (1001, 5) ∧ o.ops.Nodup ∧ o.ops ≠ [] ∧
      State.reset.reporting.events.length < 32 :=
  ⟨{ ended := 1000, origin := .pulse, jump := some (1001, 5), relock := false, loss := false },
    { ops := [.ring, .cueBus], storeFirst := true }, rfl, by decide, by decide, by decide⟩

/-- Records due at the boundary and records that are not, in HOLDOVER and in LOCKED. -/
theorem witness_BoundaryReachesEveryBlockOnce_endings :
    ((withJunction .primed .locked none).table.map (·.number)).Nodup ∧
      (withJunction .primed .locked none).config.isSome ∧ (holdoverAt 5).refState = .holdover ∧
      (lockedAt 5).refState ≠ .holdover ∧
      ahead (fields11.commitFrame 50) 100950 = false ∧ ahead (fields11.commitFrame 50) 100951 = false ∧
      ahead (fields11.commitFrame 50) 100949 = true ∧ (junction11 .primed).state.isOnAir = false ∧
      (junction11 .locked).state.isUncommitted = true :=
  ⟨by decide, rfl, rfl, by decide, by decide +kernel, by decide +kernel, by decide +kernel, rfl, rfl⟩

/-- A lock pulse in SEEKING and a relock pulse in HOLDOVER, at the ends of the window. -/
theorem witness_BoundaryReachesEveryBlockOnce_locks :
    (lockingAt Timing.reset 41000).LocksAt 19687500 20000000 41000 ∧
      (lockingAt (holdoverAt 1000) 999).LocksAt 20312500 20000000 999 :=
  ⟨(lockingAt_locks _ _).1, (lockingAt_locks _ _).2⟩

/-- The reference states of the two, and LOCKED with no pulse missing and with one. -/
theorem witness_BoundaryReachesEveryBlockOnce_states :
    (lockingAt Timing.reset 41000).refState = .seeking ∧ (lockingAt (holdoverAt 1000) 999).refState = .holdover ∧
      (lockedAt 5).missing = 0 ∧ ({ lockedAt 5 with missing := 1 } : Timing).missing ≠ 0 := by decide

/-- R53: the jump that carries HF past the commit frame of a PRIMED record ends it ABANDONED(TIME_JUMP), and one that
falls short ends nothing. -/
theorem test_time_jump_endings :
    let s := withJunction .primed .locked none
    let b : Boundary := { ended := 5, origin := .pulse, jump := some (6, 100950), relock := false, loss := false }
    let x := startContext false []
    let t := ({ s with timing := lockedAt 100950 }).boundaryOp b x .jumpEndings
    t.table = [] ∧ t.reporting.events.map (fun e => (e.kind, e.code)) = [(.junctionEnd, detailBytes 4 7 0)] ∧
      ({ s with timing := lockedAt 100949 }).boundaryOp b x .jumpEndings = { s with timing := lockedAt 100949 } := by
  decide +kernel

theorem witness_OwnSlotDiscarded :
    ∀ st ∈ [StationState.listening, .silentClash], ∃ (s : State) (cy : Cycle), s = inSlot (part (lockedAt 5) st) 3 ∧
      s.config = some cfg ∧ s.bus.cycle = some cy ∧ cy.nextSlot < cfg.slots ∧ cy.nextSlot = cfg.station ∧
      s.bus.station = st :=
  fun _ _ => ⟨_, _, rfl, rfl, rfl, (by decide : 3 < cfg.slots), rfl, rfl⟩

/-- A beacon of station 1 with no claims, as it is sent in frame 5,001. -/
def beacon1 : Beacon := { station := 1, digest := cfg.digest, bitmap := 3, claims := [] }

theorem witness_PeerSlotGood :
    ∃ (s : State) (cy : Cycle) (h : HeardBeacon), s = inSlot (part (lockedAt 5001) .listening) 1 ∧ s.config = some cfg ∧
      s.bus.cycle = some cy ∧ cy.nextSlot < cfg.slots ∧ cfg.slots ≤ 16 ∧ cy.nextSlot ≠ cfg.station ∧
      goodBeacon cy.nextSlot (beacon1.encode 5001) = some h ∧
      (after (.slotEnd (.carrier (beacon1.encode 5002))) s).bus.groupMismatch = true ∧
      (after (.slotEnd (.carrier (beacon1.encode 5001))) s).bus.groupMismatch = false :=
  ⟨_, _, { digest := cfg.digest, bitmap := 3, senderHf := 5001, claims := [] }, rfl, rfl, rfl, by decide,
    by decide, by decide, by decide +kernel, by decide +kernel, by decide +kernel⟩

theorem witness_PeerSlotMissed :
    ∀ missed ∈ [6, 7], ∃ (s : State) (cy : Cycle), s.bus.entry 1 = { PresenceEntry.reset with state := .present, missed := missed } ∧
      s.config = some cfg ∧ s.bus.cycle = some cy ∧ cy.nextSlot = 1 ∧ 1 < cfg.slots ∧ cfg.slots ≤ 16 ∧
      1 ≠ cfg.station ∧ heardBeacon (.carrier [1, 2]) 1 = none ∧ heardBeacon .noCarrier 1 = none ∧
      s.bus.groupMismatch = s.bus.mismatched cfg.station := by
  intro k hk
  refine ⟨{ (inSlot (part (lockedAt 5) .member) 1) with bus := ((inSlot (part (lockedAt 5) .member) 1).bus.setEntry 1
    { PresenceEntry.reset with state := .present, missed := k }) }, _, ?_, rfl, rfl, rfl, by decide, by decide,
    by decide, by decide, by decide, ?_⟩
  all_goals
    simp only [List.mem_cons, List.not_mem_nil, or_false] at hk
    obtain rfl | rfl := hk <;> decide +kernel

/-- MEMBER in its own slot, having sent a beacon. -/
def driving (mismatches : Nat) (sent : List Byte) : State :=
  let s := inSlot (part (lockedAt 5009) .member) 3
  { s with bus := { s.bus with sending := some sent, mismatches := mismatches, txen := true } }

theorem witness_OwnSlotDrivenAndReadBack :
    ∀ k ∈ [1, 2], ∃ (s : State) (cy : Cycle) (sent : List Byte), s = driving k sent ∧ sent = { beacon1 with station := 3 }.encode 5009 ∧
      s.config = some cfg ∧ s.bus.cycle = some cy ∧ cy.nextSlot < cfg.slots ∧ cfg.slots ≤ 16 ∧
      cy.nextSlot = cfg.station ∧ s.bus.station = .member ∧ s.bus.sending = some sent ∧
      (goodBeacon cfg.station sent).isSome = true ∧ s.bus.mismatches = k :=
  fun k _ => ⟨driving k ({ beacon1 with station := 3 }.encode 5009), _, _, rfl, rfl, rfl, rfl, by decide, by decide,
    by decide, rfl, rfl, by decide +kernel, rfl⟩

theorem witness_CycleCloseCountsAndHandsOn :
    ∀ st ∈ [StationState.listening, .member, .silentClash], ∀ k ∈ [6, 7], ∃ (s : State) (cy : Cycle),
      s.config = some cfg ∧ s.bus.cycle = some cy ∧ cy.nextSlot = cfg.slots ∧ cfg.station < 16 ∧
      s.bus.station = st ∧ s.bus.listening = k :=
  fun st _ k _ => ⟨{ (inSlot (part (lockedAt 5) st) 4) with
    bus := { (inSlot (part (lockedAt 5) st) 4).bus with listening := k } }, _, rfl, rfl, rfl, (by decide : cfg.station < 16), rfl,
    rfl⟩

/-- The stages' records and claims: an OPEN record without a position and a LOCKED one, a PLANNED one that is admitted,
a claim that awaits publication and one that keeps its form, and tags that are taken. -/
theorem witness_CycleCloseCountsAndHandsOn_stages :
    (∃ x : CloseContext, x.station = .member) ∧
    (withJunction .opened .opened none).junction? 11 = some (junction11 .opened) ∧
    (withJunction .locked .locked none).junction? 11 = some (junction11 .locked) ∧
    (withJunction .planned .opened none).junction? 11 = some (junction11 .planned) ∧
    (∀ mark : Bool, ∃ (s : State) (k : OwnClaim),
      s.claim? (Candidate.claim 11 .record).key.1 (Candidate.claim 11 .record).key.2 = some k ∧ k.mark = mark) ∧
    ([6, 7, 8, 9] : List Byte).length ≤ 4 :=
  ⟨⟨{ hf := 0, station := .member, entry := false, mismatch := false, results := [], own := 3, settle := 3,
      horizon := 5000 }, rfl⟩, rfl, rfl, rfl,
    fun mark => ⟨{ withJunction .opened .opened none with publisher :=
      { Publisher.reset with claims := [{ claim11 .opened none with mark := mark }] } }, _, rfl, rfl⟩, by decide⟩

/-- R92: the next tag is the first after the last issued one that no other claim of the choice holds; it wraps. -/
theorem test_next_tag :
    nextTag [] 4 255 = 0 ∧ nextTag [6, 8] 4 5 = 7 ∧ nextTag [6, 7] 4 5 = 8 ∧ nextTag [9, 7, 6, 8] 4 5 = 10 := by decide

/-- R91, R92, R94: a PLANNED record within the horizon is published at a close in MEMBER, at its last frame also. -/
theorem test_close_publishes :
    let closes := fun (hf : Frame) =>
      after .cycleClose (inSlot { withJunction .planned .opened none with
        timing := lockedAt hf, publisher := Publisher.reset } 4)
    ((closes 96000).bus.held.map (fun b => b.claims.map (fun k => (k.tag, k.posted, k.start)))) =
        some [(1, 96000, 101000)] ∧
      ((closes 96000).junction? 11).map (·.state) = some .opened ∧
      ((closes 95999).junction? 11).map (·.state) = some .planned := by decide +kernel

theorem witness_BoundaryMovesStation :
    (∀ st ∈ [StationState.listening, .member, .silentReference, .silentClash], ∀ k ∈ [0, 1], ∃ s : State,
      s.config = some cfg ∧ cfg.station < 16 ∧ s.timing.refState = .locked ∧
      s.timing.period = some 20000000 ∧ s.timing.missing = k ∧
      InWindow 20000000 s.timing.basis 1020000000 ∧ s.bus.station = st) ∧
    (∀ q ∈ [Timing.reset, holdoverAt 1000], ∃ s : State, s.config = some cfg ∧ s.timing.refState ≠ .locked ∧
      s.timing = lockingAt q 999 ∧ s.timing.LocksAt 20312500 20000000 999 ∧ s.bus.station = .silentReference) ∧
    ∃ (s : State) (due : Moment), s = part (holdoverAt 5) .silentClash ∧ s.config = some cfg ∧
      s.timing.refState = .holdover ∧ s.timing.freeRun = some due ∧ s.timing.period = some 20000000 := by
  refine ⟨fun st _ k _ => ?_, fun q hq => ?_, _, 1020000000, rfl, rfl, rfl, rfl, rfl⟩
  · exact ⟨part { lockedAt 5 with missing := k } st, rfl, by decide, rfl, rfl, rfl,
      (by constructor <;> norm_num : InWindow 20000000 1000000000 1020000000), rfl⟩
  · refine ⟨part (lockingAt q 999) .silentReference, rfl, ?_, rfl, (lockingAt_locks q 999).2, rfl⟩
    simp only [List.mem_cons, List.not_mem_nil, or_false] at hq
    obtain rfl | rfl := hq <;> decide

/-- R32, R6, R14: the lock pulse makes a SILENT(REFERENCE) station LISTENING and opens its first cycle. -/
theorem test_lock_opens_first_cycle :
    let t := after (.referencePulse 20000000 anyOrder) (part (lockingAt Timing.reset 41000) .silentReference)
    t.bus.station = .listening ∧
      t.bus.cycle = some { hf := 41000, basis := 20000000, period := 20000000, nextSlot := 0 } := by
  decide +kernel

/-- R31, R35: the eighth close of LISTENING is the entry close, and neither the seventh nor one in MEMBER is. -/
theorem test_entry_close_marked :
    let b := fun (st : StationState) (k : Nat) => { CueBus.reset with station := st, listening := k }
    (b .listening 7).entersMember = true ∧ (b .listening 6).entersMember = false ∧
      (b .member 8).entersMember = false := by decide

theorem entry_reset (i : Nat) : State.reset.bus.entry i = PresenceEntry.reset := by
  simp only [State.reset, CueBus.entry, CueBus.reset, Vector.getElem?_replicate]
  split <;> rfl

theorem reset_busSound (q : List Instr) : { State.reset with pending := q }.BusSound where
  listening := by show 0 ≤ 8; decide
  counting h := by cases h
  mismatches := by show 0 ≤ 3; decide
  driving h := by cases h
  entries i := by
    show (State.reset.bus.entry i).Sound
    rw [entry_reset]
    constructor <;> decide
  held h := by cases h
  sending h := by cases h
  configured c h := by cases h
  idle _ := rfl

theorem witness_CueBusSoundKept :
    ∃ s t : State, s.BusSound ∧ step s = .next t ∧ t.timing.pulseRun ≠ s.timing.pulseRun :=
  ⟨{ State.reset with pending := [.referencePulse 0 anyOrder] }, _, reset_busSound _, rfl, by decide +kernel⟩

theorem reset_mirrorSound (q : List Instr) : { State.reset with pending := q }.MirrorSound := by
  have h (i : Nat) : State.reset.mirror.entry i = MirrorEntry.reset := by
    simp only [State.reset, Mirror.entry, Mirror.reset, Vector.getElem?_replicate]
    split <;> rfl
  exact ⟨fun i => by show (State.reset.mirror.entry i).claims.length ≤ 4; rw [h]; decide,
    fun i hi => absurd (show (State.reset.mirror.entry i).claims = [] by rw [h]; rfl) hi⟩

theorem witness_MirrorSoundKept :
    ∃ s t : State, s.BusSound ∧ s.MirrorSound ∧ step s = .next t ∧ t ≠ s :=
  ⟨{ State.reset with pending := [.oselAsserted] }, _, reset_busSound _, reset_mirrorSound _, rfl, by decide +kernel⟩

/-- A claim of the interval [10, 20) with a tag. -/
def claim10 (tag : Byte) : Claim :=
  { tag := tag, cls := .opened, posted := 5, start := 10, stop := 20, campaign := 7 }

theorem witness_BeaconRoundTrip :
    ∃ b : Beacon, b = { station := 15, digest := 1, bitmap := 2, claims := [claim10 1, claim10 2, claim10 3, claim10 4] }
      ∧ b.station < 256 ∧ b.claims.length ≤ 4 ∧ (∀ k ∈ b.claims, ahead k.stop k.start = true) ∧
      (b.claims.map (·.tag)).Nodup :=
  ⟨_, rfl, by decide, by decide, by decide, by decide⟩

theorem witness_OrderPayloadsRoundTrip :
    (∃ f : FieldSet, f = { fields12 with
        layout := some Layout.default, alternate := some { clip := 1, campaign := 2, length := 16777215 }
        cues := [{ offset := 65535, line := 3, action := .pulse }], hold := 65535 } ∧
      f.early < 256 ∧ f.rin < 256 ∧ f.rout < 256 ∧ f.hold < 65536 ∧ f.minHold < 65536 ∧ f.cues.length < 256 ∧
      (∀ k ∈ f.cues, k.offset < 65536) ∧ f.primary.length < 16777216 ∧
      (∀ a, f.alternate = some a → a.length < 16777216) ∧
      (∀ l, f.layout = some l → l.fill < 256 ∧ ∀ w ∈ [l.credits, l.promo],
        w.x < 65536 ∧ w.y < 65536 ∧ w.width < 65536 ∧ w.height < 65536)) ∧
    cfg.inRange = true := by
  refine ⟨⟨_, rfl, by decide, by decide, by decide, by decide, by decide, by decide, by decide, by decide, ?_, ?_⟩,
    by decide⟩
  · rintro a ⟨⟩; decide
  · rintro l ⟨⟩; decide

/-- An owned claim. -/
def owned (owner : Nat) (a b : Frame) (campaign : Half) : OwnedClaim :=
  { owner := owner
    claim := { tag := 0, cls := .opened, posted := 0, start := a, stop := b, campaign := campaign } }

theorem witness_CampaignTest :
    (owned 2 10 20 0).claim.campaign = 0 ∧ (owned 2 10 20 9).claim.campaign ≠ 0 ∧
    (∀ t ∈ [owned 2 10 20 9], t.owner = (owned 2 15 30 9).owner) ∧
    ((owned 1 5 10 9).claim.stop = (owned 2 10 20 9).claim.start ∧
      ((owned 1 5 10 9).claim.stop - (owned 1 5 10 9).claim.start).toNat ≤ 8388607 ∧
      ((owned 2 10 20 9).claim.stop - (owned 2 10 20 9).claim.start).toNat ≤ 8388607) := by decide

theorem witness_BudgetTest :
    ∃ (placed : List OwnedClaim) (k : OwnedClaim), placed = [owned 0 10 20 0, owned 15 20 30 0] ∧ k = owned 2 10 30 0 ∧
      (∀ t ∈ placed, t.owner < 16) ∧ k.claim.start ≠ k.claim.stop :=
  ⟨_, _, rfl, rfl, by decide, by decide⟩

/-- R65: each key in turn, the earlier ones level; posted frames exactly 2^23 apart are level. -/
theorem test_rank_keys :
    let k := fun (owner : Nat) (cls : ClaimClass) (posted : Frame) (tag : Byte) => ({ owner := owner, claim :=
      { tag := tag, cls := cls, posted := posted, start := 0, stop := 1, campaign := 0 } } : OwnedClaim)
    (k 9 .locked 50 9).ranksAhead (k 1 .opened 10 1) = true ∧ (k 9 .onAir 50 9).ranksAhead (k 1 .locked 10 1) = true ∧
      (k 9 .opened 16777215 9).ranksAhead (k 1 .opened 0 1) = true ∧
      (k 1 .opened 8388608 9).ranksAhead (k 2 .opened 0 1) = true ∧
      (k 2 .opened 0 1).ranksAhead (k 1 .opened 8388608 9) = false ∧
      (k 1 .opened 7 1).ranksAhead (k 1 .opened 7 2) = true := by decide +kernel

/-- The context of a close at an HF. -/
def closing (hf : Frame) (res : List (Byte × Option SeatResult)) : CloseContext :=
  { hf := hf, station := .member, entry := false, mismatch := false, results := res, own := 3, settle := 3, horizon := 5000 }

theorem witness_OpenClaimSettlesAndLocks :
    ∀ n ∈ [0, 1, 2], ∃ (s : State) (r : Junction) (k : OwnClaim), s = withJunction .opened .opened (some n) ∧ s.junction? r.number = some r ∧
      s.claim? r.number .record = some k ∧ k.settle = some n ∧ r.state = .opened ∧
      (SeatResult.seated ≠ .unseatedCampaign ∨ r.promo = .alternate ∨ r.fields.alternate = none) ∧
      (closing 100000 []).mismatch = false ∧ (closing 100000 []).settle = 3 :=
  fun n _ => ⟨_, junction11 .opened, claim11 .opened (some n), rfl, rfl, rfl, rfl, rfl, .inl (by decide), rfl, rfl⟩

theorem witness_OpenClaimSwitches :
    ∃ (s : State) (r : Junction) (k : OwnClaim) (alt : Promo), s = withJunction .opened .opened (some 1) ∧
      s.junction? r.number = some r ∧ s.claim? r.number .record = some k ∧ r.state = .opened ∧
      r.promo = .primary ∧ r.fields.alternate = some alt ∧ alt.campaign = 4 :=
  ⟨_, junction11 .opened, claim11 .opened (some 1), { clip := 8, campaign := 4, length := 900 }, rfl, rfl, rfl, rfl,
    rfl, rfl, rfl⟩

/-- An amendment of junction 11 to Snom 101,500. -/
def later11 : Amendment := { fields := { fields11 with snom := 101500 }, promo := .primary }

/-- Junction 11 LOCKED with that amendment pending. -/
def amended11 : Junction := { junction11 .locked with pending := some later11 }

/-- The secondary claim of that amendment. -/
def claim6 (settle : Nat) : OwnClaim :=
  { claim11 .opened (some settle) with role := .secondary, tag := some 6, start := 101500, stop := 102300 }

/-- Junction 11 LOCKED with the amendment pending, and its two claims handed on. -/
def amending (settle : Nat) : State :=
  { withJunction .locked .locked none with
    table := [amended11]
    publisher := { Publisher.reset with
      claims := [claim11 .locked none, claim6 settle]
      lastChoice := [{ claim10 5 with cls := .locked }, claim10 6] } }

/-- R78: a result reaches the claim by its tag; a claim with its publish mark set, a tag that was not handed on, and a
tag without a result have none. -/
theorem test_result_by_tag :
    let k := claim11 .locked none
    let s := amending 0
    s.resultFor (closing 5 [(6, none), (5, some .seated), (5, none)]) k = some .seated ∧
      s.resultFor (closing 5 [(5, some .seated)]) { k with mark := true } = none ∧
      (withJunction .locked .locked none).resultFor (closing 5 [(5, some .seated)]) k = none ∧
      s.resultFor (closing 5 [(6, some .seated)]) k = none := by decide +kernel

/-- A pending amendment one frame before a commit frame and at it, with its claim at each settle count and with a result
and without one. -/
theorem witness_OpenClaimSettles_amendments :
    ∀ n ∈ [0, 1, 2], ∃ (s : State) (r : Junction) (a : Amendment) (k : OwnClaim), s = amending n ∧
      s.junction? r.number = some r ∧ r.pending = some a ∧ s.claim? r.number .secondary = some k ∧
      k.settle = some n ∧ ahead (r.fields.commitFrame s.lead) 100949 = true ∧
      ahead (a.fields.commitFrame s.lead) 100949 = true ∧ ahead (r.fields.commitFrame s.lead) 100950 = false ∧
      s.resultFor (closing 100949 [(6, some .seated)]) k = some .seated ∧
      s.resultFor (closing 100949 []) k = none := by
  intro n hn
  refine ⟨amending n, amended11, later11, claim6 n, rfl, rfl, rfl, rfl, rfl, ?_⟩
  simp only [List.mem_cons, List.not_mem_nil, or_false] at hn
  obtain rfl | rfl | rfl := hn <;> decide +kernel

/-- R87, R88: at S the amendment is adopted in its new place; at a commit frame it lapses. -/
theorem test_amendment_adopted_or_lapsed :
    let t := (amending 2).secondaryStep (closing 100949 [(6, some .seated)]) 11
    let u := (amending 2).secondaryStep (closing 100950 [(6, some .seated)]) 11
    t.table.map (fun r => (r.fields.snom, r.pending.isSome)) = [(101500, false)] ∧
      t.publisher.claims.map (fun k => (k.role, k.tag, k.cls)) = [(.record, some 6, .locked)] ∧
      t.reporting.events.map (·.kind) = [.amendAdopted] ∧
      u.table = [junction11 .locked] ∧ u.publisher.claims = [claim11 .locked none] ∧
      u.reporting.events.map (·.kind) = [.amendLapsed] := by decide +kernel

theorem witness_UnseatedLockIsLost :
    (∃ (s : State) (r : Junction) (k : OwnClaim), s = withJunction .locked .locked none ∧ s.junction? r.number = some r ∧
      s.claim? r.number .record = some k ∧ r.state = .locked ∧ r.pending = none ∧
      s.reporting.events.length < 31) ∧
    ∃ (s : State) (r : Junction) (k : OwnClaim), s.junction? r.number = some r ∧ s.claim? r.number .record = some k ∧ r.state = .locked ∧
      r.pending.isSome :=
  ⟨⟨_, junction11 .locked, claim11 .locked none, rfl, rfl, rfl, rfl, rfl, by decide⟩,
    { withJunction .locked .locked none with table :=
      [{ junction11 .locked with pending := some { fields := fields12, promo := .primary } }] },
    { junction11 .locked with pending := some { fields := fields12, promo := .primary } }, claim11 .locked none, rfl,
    rfl, rfl, rfl⟩

/-- What was last heard of a peer with a bitmap. -/
def heardMap (bitmap : Half) : LastGood := { digest := 0, bitmap := bitmap, senderHf := 0, hf := 0 }

/-- A committed record's claim that has been reported and that has not, and a PRESENT peer 1 that lacks station 3 with a
peer 0 that does not. -/
def lacked (s : State) : State :=
  { s with
    bus := (s.bus.setEntry 0 { PresenceEntry.reset with
        state := .present, heard := some (heardMap 8) }).setEntry 1
      { PresenceEntry.reset with
        state := .present, heard := some (heardMap 7) }
    publisher := { s.publisher with memberCloses := 2 } }

theorem witness_UnseatedLockIsLost_committed :
    ∀ st ∈ [RecordState.primed, .squeezeIn, .hold, .release], ∀ told : Bool,
      ∃ (s : State) (r : Junction) (k : OwnClaim), s.junction? r.number = some r ∧
        s.claim? r.number .record = some k ∧ r.state = st ∧ r.state.isCommitted = true ∧ k.conflict = told ∧
        s.reporting.events.length < 31 := by
  intro st hst told
  refine ⟨{ withJunction st .locked none with publisher :=
      { Publisher.reset with claims := [{ claim11 .locked none with conflict := told }] } },
    junction11 st, { claim11 .locked none with conflict := told }, rfl, rfl, rfl, ?_, rfl, (by decide : 0 < 31)⟩
  simp only [List.mem_cons, List.not_mem_nil, or_false] at hst
  obtain rfl | rfl | rfl | rfl := hst <;> rfl

theorem witness_UnseatedLockIsLost_forfeit :
    let s := lacked (amending 0)
    let lacking := fun (i : Nat) => i < 16 ∧ i ≠ 3 ∧ (s.bus.entry i).state = .present ∧
      ∃ h, (s.bus.entry i).heard = some h ∧ h.bitmap.getLsbD 3 = false
    s.publisher.memberCloses = 2 ∧ lacking 1 ∧ (∀ i < 1, ¬ lacking i) ∧ (∀ i, ¬ (i < 16 ∧ i ≠ 3 ∧
      (State.reset.bus.entry i).state = .present)) ∧ Publisher.reset.memberCloses ≠ 2 ∧
      (s.claim? 11 .record).isSome ∧ s.reporting.events.length + 1 < 32 := by
  refine ⟨rfl, ⟨by decide, by decide, by decide +kernel, heardMap 7,
    by decide +kernel, by decide⟩, ?_, ?_, by decide, rfl, by decide⟩
  · rintro i hi ⟨-, -, -, h, hh, hb⟩
    obtain rfl : i = 0 := by omega
    have e : ((lacked (amending 0)).bus.entry 0).heard =
      some (heardMap 8) := by decide +kernel
    rw [e] at hh
    cases hh
    exact absurd hb (by decide)
  · rintro i ⟨-, -, h⟩
    rw [entry_reset] at h
    cases h

/-- R80, R88: the forfeit reposts the claim, lets the amendment lapse and names peer 1. -/
theorem test_forfeit :
    let t := (lacked (amending 0)).stageForfeit (closing 5 [])
    t.table = [junction11 .opened] ∧ t.publisher.claims = [(claim11 .locked none).repost] ∧
      t.reporting.events.map (fun e => (e.kind, e.code, e.value)) =
        [(.amendLapsed, 3, 0), (.forfeit, 1, 1)] := by decide +kernel

theorem witness_CommitTest :
    ∃ (s : State) (x : CloseContext) (r : Junction) (k : OwnClaim) (d : Claim), s.junction? r.number = some r ∧ r.state = .locked ∧ s.claim? r.number .record = some k ∧
      s.resultFor x k = some .seated ∧ d ∈ s.publisher.lastChoice ∧ k.tag = some d.tag ∧ d.cls = .locked ∧
      s.engine.entries.all (fun e => e.junction != r.number) = true ∧ x = closing 100950 [(5, some .seated)] ∧
      (junction11 .opened).state ≠ .locked :=
  ⟨{ withJunction .locked .locked none with publisher :=
      { Publisher.reset with
        claims := [claim11 .locked none], lastChoice := [{ claim10 5 with cls := .locked }] } },
    _, junction11 .locked, claim11 .locked none, { claim10 5 with cls := .locked }, rfl, rfl, rfl, by decide +kernel,
    by decide, rfl, rfl, rfl, rfl, by decide⟩

/-- A close outside MEMBER at the commit frame of a PLANNED record, and one frame before it. -/
theorem witness_CommitTest_outside :
    let s := { withJunction .planned .opened none with publisher := Publisher.reset }
    let x := { closing 100950 [] with station := .listening }
    x.station ≠ .member ∧ x.results = [] ∧ (∀ r ∈ s.table, r.pending = none) ∧ (s.table.map (·.number)).Nodup ∧
      ahead (fields11.commitFrame s.lead) x.hf = false ∧ ahead (fields11.commitFrame s.lead) 100949 = true ∧
      s.reporting.events.length + s.table.length ≤ 32 := by decide +kernel

/-- R98: the record ends DECLINED(SILENT) at its commit frame, outside MEMBER. -/
theorem test_silent_decline :
    let t := (withJunction .planned .opened none).publisherClose { closing 100950 [] with station := .silentClash }
    t.table = [] ∧ t.reporting.events.map (fun e => (e.kind, e.code)) = [(.junctionEnd, detailBytes 3 6 0)] := by
  decide +kernel

theorem witness_OrderFrameChecked :
    (reading State.reset).exchange = .reading ∧ State.reset.exchange ≠ .reading ∧
      (0 : Half) ≠ orderCrc OrderKind.withdrawAll.code [] ∧ ¬ OrderKind.Fits .withdrawAll [1] ∧
      orderCrc 8 [] ≠ 0 := by
  refine ⟨rfl, by decide, by decide +kernel, ?_, by decide +kernel⟩
  show ¬ [(1 : Byte)].length = 0
  decide

/-- Refused orders: a CANCEL of an unknown number. -/
theorem witness_RefusedOrderLeavesPart :
    ∃ (s t : State) (p : List Byte) (crc : Half) (r : Reply), s.exchange = .reading ∧ exec (OrderKind.cancel.command p crc) s = .next t ∧
      t.exchange = .replying r ∧ r.status ≠ .accepted :=
  ⟨reading State.reset, _, [0, 1], orderCrc OrderKind.cancel.code [0, 1],
    { status := .refusedUnknown, payload := [] }, rfl, rfl, by decide +kernel, by decide⟩

theorem witness_ConfigureOrder :
    (reading State.reset).Takes .configure cfg.encode (orderCrc OrderKind.configure.code cfg.encode) ∧
      State.reset.bus.station = .unconfigured ∧ decodeConfiguration cfg.encode = some cfg ∧
      decodeConfiguration { cfg with slots := 5 }.encode = none ∧
      (reading (part (lockedAt 5) .member)).Takes .configure cfg.encode
        (orderCrc OrderKind.configure.code cfg.encode) ∧
      (part (lockedAt 5) .member).bus.station ≠ .unconfigured :=
  ⟨⟨rfl, rfl, rfl⟩, rfl, by decide +kernel, by decide +kernel, ⟨rfl, rfl, rfl⟩, by decide⟩

/-- A field set as a payload for junction `n`. -/
def takes (s : State) (k : OrderKind) (p : List Byte) : Prop := s.Takes k p (orderCrc k.code p)

/-- Every refusal of PLAN, and an accepted one, from a part that takes it. -/
theorem witness_PlanOrder :
    takes (reading (part (lockedAt 100000) .member)) .plan (fields11.encode 11) ∧
    decodeFieldSet (fields11.encode 11) = some fields11 ∧
    (let s := part (lockedAt 100000) .member
     s.junction? 11 = none ∧ s.fieldsInRange 11 fields11 = true ∧ fields11.longEnough = true ∧
       ahead (fields11.commitFrame s.lead) s.hf = true ∧
       s.fieldsInRange 0 fields11 = false ∧ { fields11 with rout := 26 }.longEnough = false ∧
       ahead (fields11.commitFrame s.lead) (part (lockedAt 100950) .member).hf = false) ∧
    (withJunction .opened .opened none).junction? 11 ≠ none ∧
    { fields11 with snom := 101799 }.overlaps fields11 = true ∧
    { fields11 with snom := 101800 }.overlaps fields11 = false ∧
    decodeFieldSet ((fields11.encode 11).set 2 9) = none := by
  refine ⟨⟨rfl, rfl, ?_⟩, by decide +kernel, by decide +kernel, by decide, by decide, by decide, by decide +kernel⟩
  show 26 ≤ (fields11.encode 11).length ∧ (fields11.encode 11).length = fieldSetLength (fields11.encode 11)
  decide +kernel

/-- PLAN from an UNCONFIGURED part, before HF is valid, with a full table, and with one place left. -/
theorem witness_PlanOrder_refusals :
    let full := fun (n : Nat) => { reading (part (lockedAt 100000) .member) with
      table := List.replicate n (plannedRecord 12 fields12) }
    takes (reading State.reset) .plan (fields11.encode 11) ∧ State.reset.bus.station = .unconfigured ∧
      (part Timing.reset .listening).timing.hfValid = false ∧ takes (full 16) .plan (fields11.encode 11) ∧
      ¬ (full 16).table.length < 16 ∧ (full 15).table.length < 16 := by
  have hf : OrderKind.Fits .plan (fields11.encode 11) := by
    show 26 ≤ (fields11.encode 11).length ∧ (fields11.encode 11).length = fieldSetLength (fields11.encode 11)
    decide +kernel
  exact ⟨⟨rfl, rfl, hf⟩, rfl, rfl, ⟨rfl, rfl, hf⟩, by decide, by decide⟩

/-- Logs 12 and 36: the ends of the planning reach, an end equal to HF, and one exactly 2^23 frames away. -/
theorem test_planning_reach :
    withinReach 5 5 = true ∧ withinReach 5 4194309 = true ∧ withinReach 5 4194310 = false ∧ withinReach 5 4 = true ∧
      withinReach 0 8388608 = false := by decide

theorem witness_AmendSetsPromoInUse :
    (junction11 .opened).promo = .primary ∧
    ({ junction11 .opened with promo := .alternate }).promo = .alternate ∧ fields11.alternate ≠ none ∧
    fields12.alternate = none := by decide

/-- An AMEND that keeps the claim of junction 11, and one that does not. -/
theorem witness_AmendChecks :
    takes (reading (withJunction .locked .locked none)) .amend (fields11.encode 11) ∧
    (withJunction .locked .locked none).junction? (payloadNumber (fields11.encode 11)) = some (junction11 .locked) ∧
    (junction11 .locked).state.isCommitted = false ∧ (junction11 .primed).state.isCommitted = true ∧
    decodeFieldSet (fields11.encode 11) = some fields11 := by
  refine ⟨⟨rfl, rfl, ?_⟩, by decide +kernel, by decide, by decide, by decide +kernel⟩
  show 26 ≤ (fields11.encode 11).length ∧ (fields11.encode 11).length = fieldSetLength (fields11.encode 11)
  decide +kernel

theorem witness_AmendPaths :
    ∀ st ∈ [RecordState.planned, .opened, .locked],
      let s := withJunction st .opened none
      takes (reading s) .amend (fields11.encode 11) ∧ s.bus.station ≠ .unconfigured ∧ s.timing.hfValid = true ∧
      s.junction? (payloadNumber (fields11.encode 11)) = some (junction11 st) ∧
      decodeFieldSet (fields11.encode 11) = some fields11 ∧
      s.fieldsRefusal 11 fields11 (removeNumber 11 s.table) = none ∧
      (junction11 st).keepsClaim fields11 .primary = true ∧
      (junction11 st).keepsClaim { fields11 with snom := 101001 } .primary = false ∧
      s.positionsAhead ≤ 3 := by
  have hf : takes (reading State.reset) .amend (fields11.encode 11) := by
    refine ⟨rfl, rfl, ?_⟩
    show 26 ≤ (fields11.encode 11).length ∧ (fields11.encode 11).length = fieldSetLength (fields11.encode 11)
    decide +kernel
  intro st hst
  simp only [List.mem_cons, List.not_mem_nil, or_false] at hst
  obtain rfl | rfl | rfl := hst <;>
    exact ⟨⟨rfl, rfl, hf.fits⟩, by decide, rfl, by decide +kernel, by decide +kernel, by decide +kernel,
      by decide +kernel, by decide +kernel, by decide +kernel⟩

/-- A LOCKED record with a pending amendment, and four LOCKED records that leave no position free. -/
theorem witness_AmendPaths_pending :
    let r := { junction11 .locked with pending := some { fields := fields12, promo := .primary } }
    let s := { withJunction .locked .locked none with table := [r] }
    s.junction? 11 = some r ∧ r.pending.isSome ∧ r.keepsClaim fields11 .primary = true ∧
    r.keepsClaim { fields11 with snom := 101001 } .primary = false ∧
    s.fieldsRefusal 11 fields11 (removeNumber 11 s.table) = none ∧
    (let others := [12, 13, 14].map (fun n => { plannedRecord n fields12 with state := .locked })
     let full := { s with table := junction11 .locked :: others }
     3 < full.positionsAhead ∧ full.junction? 11 = some (junction11 .locked) ∧
     full.fieldsRefusal 11 { fields11 with snom := 101001 } (removeNumber 11 full.table) = none) := by decide +kernel

theorem witness_CancelOrder :
    takes (reading (withJunction .primed .locked none)) .cancel [0, 11] ∧ payloadNumber [0, 11] = 11 ∧
    (withJunction .primed .locked none).junction? 11 = some (junction11 .primed) ∧
    (withJunction .primed .locked none).junction? 12 = none ∧ (junction11 .primed).state.isOnAir = false ∧
    (onAir .hold .hold none).junction? 11 = some (junction11 .hold) ∧ (junction11 .hold).state.isOnAir = true ∧
    (onAir .hold .hold none).sequencer.onAir = some 11 ∧ (onAir .hold .hold none).sequencer.reason = none ∧
    (onAir .hold .hold (some .cancel)).sequencer.reason.isSome :=
  ⟨⟨rfl, rfl, rfl⟩, by decide +kernel, by decide, by decide, rfl, by decide, rfl, rfl, rfl, rfl⟩

theorem witness_WithdrawAllOrder :
    takes (reading (withJunction .opened .opened none)) .withdrawAll [] ∧
      ((withJunction .opened .opened none).table.map (·.number)).Nodup ∧
      (withJunction .opened .opened none).table.filter (fun r => !r.state.isOnAir) ≠ [] :=
  ⟨⟨rfl, rfl, rfl⟩, by decide, by decide⟩

theorem table11_sound : TableSound [junction11 .opened] where
  room := by decide
  numbered := by decide
  distinct := by decide
  apart a ha b hb h := by
    rw [List.mem_singleton] at ha hb
    exact absurd (ha.trans hb.symm ▸ rfl) h

theorem witness_TableSoundKept :
    ∃ s t : State, TableSound s.table ∧ step s = .next t ∧ t.table ≠ s.table :=
  ⟨{ reading (withJunction .opened .opened none) with
      pending := [.withdrawAll [] (orderCrc OrderKind.withdrawAll.code [])] }, _, table11_sound, rfl,
    by decide +kernel⟩

/-- Records 11 and 12, in order, and a step that withdraws them. -/
theorem witness_TableSoundKept_order :
    ∃ s t : State, s = { reading (withJunction .opened .opened none) with
        table := [junction11 .opened, plannedRecord 12 fields12]
        pending := [.withdrawAll [] (orderCrc OrderKind.withdrawAll.code [])] } ∧
      step s = .next t ∧ t.table ≠ s.table ∧ StartsTogether s.table ∧ StartsTogether t.table ∧
      InOrder s.table := by
  refine ⟨_, _, rfl, rfl, by decide +kernel, ⟨101000, ?_⟩, ⟨0, ?_⟩, ?_⟩
  · intro a ha f hf
    simp only [List.mem_cons, List.not_mem_nil, or_false] at ha
    obtain rfl | rfl := ha <;>
    · simp only [Junction.occupied, junction11, plannedRecord, Option.map_none, Option.toList_none, List.mem_cons,
        List.not_mem_nil, or_false] at hf
      subst hf
      decide +kernel
  · intro a ha
    have : (after (.withdrawAll [] (orderCrc OrderKind.withdrawAll.code [])) { reading (withJunction .opened .opened none) with
        table := [junction11 .opened, plannedRecord 12 fields12] }).table = [] := by decide +kernel
    change a ∈ (after (.withdrawAll [] (orderCrc OrderKind.withdrawAll.code [])) { reading (withJunction .opened .opened none) with
        table := [junction11 .opened, plannedRecord 12 fields12] }).table at ha
    rw [this] at ha
    cases ha
  · simp only [InOrder, List.pairwise_cons, List.mem_singleton, forall_eq, List.not_mem_nil, false_implies,
      implies_true, List.Pairwise.nil, and_true]
    decide +kernel

/-- R38: a record planned between two others takes its place between them. -/
theorem test_insert_between :
    (insertByStart (plannedRecord 13 { fields11 with snom := 102000 })
      [junction11 .opened, plannedRecord 12 fields12]).map (·.number) = [11, 13, 12] := by decide +kernel

theorem witness_LayoutStagedAndLoaded :
    let p := Layout.default.encode ++ [1]
    takes (reading (part (lockedAt 5) .member)) .layout p ∧ (decodeLayout p 0).valid = true ∧
    LoadMode.ofCode (num1 p 17) = some .atFrame ∧ LoadMode.ofCode 4 = none ∧
    { Layout.default with fill := 16 }.valid = false ∧
    ({ LayoutStore.reset with staged := some .atFrame } : LayoutStore).staged = some .atFrame :=
  ⟨⟨rfl, rfl, rfl⟩, by decide +kernel, by decide +kernel, rfl, by decide, rfl⟩

/-- Each load mode staged, a start with Rin 0, 1 and 2, and records with a layout of their own and without. -/
theorem witness_LayoutStagedAndLoaded_starts :
    (∀ m : LoadMode, ({ LayoutStore.reset with staged := some m } : LayoutStore).staged = some m) ∧
      LayoutStore.reset.staged = none ∧ fields11.layout = none ∧
      ({ fields11 with layout := some Layout.default } : FieldSet).layout = some Layout.default ∧
      ({ fields11 with rin := 1 } : FieldSet).rin ≤ 1 ∧ ¬ ({ fields11 with rin := 2 } : FieldSet).rin ≤ 1 :=
  ⟨fun _ => rfl, rfl, rfl, rfl, by decide, by decide⟩

/-- R148: a junction's own layout drops a staged one, which is reported, and is loaded with cause 4. -/
theorem test_own_layout_drops_staged :
    let s := { part (lockedAt 5) .member with layouts := { LayoutStore.reset with staged := some .atJunction } }
    let t := s.startLayouts { junction11 .primed with fields := { fields11 with layout := some Layout.default } }
    t.layouts.staged = none ∧ t.layouts.active = LayoutStore.reset.active.other ∧
      t.reporting.events.map (fun e => (e.kind, e.code)) = [(.layoutDropped, 3), (.layoutLoaded, 4)] := by
  decide +kernel

theorem witness_QueriesReport :
    takes (reading State.reset) .queryStatus [] ∧
    takes (reading (withJunction .opened .opened none)) .queryJunction [0, 11] ∧
    (withJunction .opened .opened none).junction? (payloadNumber [0, 11]) = some (junction11 .opened) ∧
    (withJunction .opened .opened none).junction? (payloadNumber [0, 12]) = none ∧
    takes (reading State.reset) .queryMirror [0] ∧ takes (reading State.reset) .queryMirror [1] ∧
    takes (reading State.reset) .queryMirror [2] ∧ num1 [2] 0 = 2 ∧
    (∀ i, (State.reset.mirror.entry i).claims.length ≤ 4) :=
  ⟨⟨rfl, rfl, rfl⟩, ⟨rfl, rfl, rfl⟩, by decide +kernel, by decide +kernel, ⟨rfl, rfl, rfl⟩, ⟨rfl, rfl, rfl⟩,
    ⟨rfl, rfl, rfl⟩, rfl, (reset_mirrorSound []).four⟩

/-- A queue of `n` events, the first of them number 0. -/
def queued (n : Nat) : State :=
  let e (i : Nat) : Event :=
    { seq := BitVec.ofNat 16 i, hf := 0, kind := .timeJump, junction := none, code := 0, value := 0 }
  { State.reset with reporting :=
    { Reporting.reset with nextSeq := BitVec.ofNat 16 n, events := (List.range n).map e } }

theorem witness_ReadEventsOrder :
    takes (reading (queued 2)) .readEvents [1] ∧ takes (reading (queued 2)) .readEvents [8] ∧
      num1 [0] 0 < 1 ∧ 8 < num1 [9] 0 ∧ 1 ≤ num1 [1] 0 ∧ num1 [8] 0 ≤ 8 :=
  ⟨⟨rfl, rfl, rfl⟩, ⟨rfl, rfl, rfl⟩, by decide, by decide, by decide, by decide⟩

theorem reset_reportingSound : Reporting.reset.Sound where
  room := by decide
  ascend i e h := by simp [Reporting.reset] at h

theorem witness_EventQueueSoundKept :
    ∃ s t : State, s.reporting.Sound ∧ step s = .next t ∧ t.reporting ≠ s.reporting :=
  ⟨{ part { lockedAt 5 with missing := 1 } .member with pending := [.referenceWindowClose anyOrder] }, _,
    reset_reportingSound, rfl, by decide +kernel⟩

theorem witness_EventDroppedAtFullQueue :
    (queued 32).reporting.events.length = 32 ∧ AlarmName.seatConflict ≠ .eventOverflow := by decide +kernel

theorem witness_AlarmRaised :
    (queued 31).reporting.events.length < 32 ∧ AlarmName.promoFailed ≠ .eventOverflow := by decide +kernel

/-- A part whose SEAT_CONFLICT has been raised once. -/
def conflicted : State := State.reset.raiseAlarm .seatConflict 11 (some 11)

theorem witness_AlarmClearedOnlyByItsCount :
    takes (reading conflicted) .clearAlarm [6, 1] ∧ AlarmName.ofCode (num1 [6, 1] 0) = some .seatConflict ∧
    num1 [6, 1] 1 = (conflicted.reporting.alarms.get .seatConflict).count.toNat ∧
    num1 [6, 2] 1 ≠ (conflicted.reporting.alarms.get .seatConflict).count.toNat ∧
    AlarmName.ofCode (num1 [9, 0] 0) = none ∧
    (conflicted.reporting.alarms.get .seatConflict).flag = true ∧
    ((after (.clearAlarm [6, 1] (orderCrc OrderKind.clearAlarm.code [6, 1])) (reading conflicted)).reporting.alarms.get
      .seatConflict).flag = false :=
  ⟨⟨rfl, rfl, rfl⟩, rfl, by decide, by decide, rfl, by decide, by decide +kernel⟩

theorem witness_StoreBlockJudged :
    (∀ st ∈ [EngineState.requesting, .receiving], ∀ e ∈ [0, 134],
      (fetching st e).engine.state = st ∧ (fetching st e).engine.request = some request11 ∧
      (fetching st e).engine.broken = false ∧ (fetching st e).engine.discarding = false ∧
      (fetching st e).engine.refetch = none ∧ e = (fetching st e).engine.expect ∧
      e < request11.first + request11.count) ∧
    [1, 2].foldl (fun a w => a ^^^ w) 4 = 7 ∧ [1, 2].foldl (fun a w => a ^^^ w) 4 ≠ 6 ∧
    ¬ (135 = (fetching .receiving 135).engine.expect ∧ 135 < request11.first + request11.count) ∧
    (∃ g : Engine, g = { (fetching .receiving 60).engine with broken := true } ∧ g.state = .receiving ∧
      g.broken = true) :=
  ⟨by decide +kernel, by decide, by decide, by decide +kernel, _, rfl, rfl, rfl⟩

/-- A state with `n` blocks in the slot that is being filled. -/
def holding (s : State) (n : Nat) : State :=
  { s with ring := s.ring.update RingSlot.isFilling (fun u => { u with blocks := n }) }

/-- The clauses at their boundaries: runs that are whole and that are not, 134 and 135 blocks held, frames flagged and
condemned, and broken runs at a retry count of 6 and 7. -/
theorem witness_StoreRunEnds :
    let s := fetching .receiving 135
    let half := fetching .receiving 60
    s.engine.state = .receiving ∧ s.engine.request = some request11 ∧ s.engine.broken = false ∧
      request11.orphaned = false ∧ s.engine.condemned = false ∧ s.engine.refetch = none ∧
      s.engine.expect = request11.first + request11.count ∧
      half.engine.expect ≠ request11.first + request11.count ∧
      (∀ n ∈ [134, 135], (holding s n).blocksReceived = n ∧ (holding s n).engine = s.engine) ∧
      (∃ g : Engine, g = { s.engine with refetch := some 5, condemned := true } ∧ g.request = some request11 ∧
        g.broken = false ∧ g.condemned = true) ∧
      ∀ k ∈ [6, 7], ∃ g : Engine, g = { half.engine with broken := true, retry := k } ∧ g.state = .receiving ∧
        g.request = some request11 ∧ g.broken = true ∧ g.condemned = false ∧ g.retry = k :=
  ⟨rfl, rfl, rfl, rfl, rfl, rfl, rfl, by decide +kernel, by decide +kernel, ⟨_, rfl, rfl, rfl, rfl⟩,
    fun _ _ => ⟨_, rfl, rfl, rfl, rfl, rfl, rfl⟩⟩

/-- Log 15: after a broken run, a frame that holds its 135 blocks becomes READY and nothing is requested for it. -/
theorem test_whole_frame_not_asked_again :
    let s := holding (fetching .backoff 135) 135
    let t := after .backoffExpiry { s with engine := { s.engine with broken := true, retry := 1 } }
    (t.ring.slots[0]?.bind id).map (·.state) = some .ready ∧ t.engine.request.map (·.index) = some 8 := by
  decide +kernel

theorem witness_RetryAndBackoff :
    ∀ k ∈ [6, 7], ∀ st ∈ [EngineState.requesting, .receiving, .backoff],
      let s := { fetching st 60 with engine := { (fetching st 60).engine with retry := k } }
      s.engine.request = some request11 ∧ request11.orphaned = false ∧ s.engine.state = st ∧
        s.engine.retry = k ∧ s.engine.condemned = false ∧ s.engine.broken = false ∧
        s.engine.expect ≠ request11.first + request11.count := by decide +kernel

theorem witness_StoreAbortActsOnJunction :
    let s := fetching .requesting 0
    s.engine.state = .requesting ∧ s.engine.request = some request11 ∧ request11.orphaned = false ∧
      s.junction? 11 = some (junction11 .primed) ∧ (junction11 .primed).promo = .primary ∧
      (junction11 .primed).fields.alternate ≠ none ∧ fields12.alternate = none ∧
      (let t := { onAir .hold .hold none with engine := s.engine }
       t.junction? 11 = some (junction11 .hold) ∧ t.sequencer.onAir = some 11 ∧ t.sequencer.reason = none) := by
  decide +kernel

/-- The switch's slots, entry and claim, and an on-air junction whose release reason is set. -/
theorem witness_StoreAbortActsOnJunction_more :
    let s := fetching .requesting 0
    let t := { onAir .hold .hold (some .cancel) with engine := s.engine }
    (∃ e ∈ s.engine.entries, e.junction = 11) ∧ s.claim? 11 .record = some (claim11 .locked none) ∧
      t.engine.state = .requesting ∧ t.sequencer.reason.isSome ∧ t.junction? 11 = some (junction11 .hold) := by
  decide +kernel

/-- R169: the entry starts again on the alternate's clip, and its frame 0 is the next to be fetched. -/
theorem test_abort_switches :
    let t := after .storeAbort (fetching .requesting 0)
    t.engine.entries = [{ junction := 11, clip := 8, needed := 800, fetchIndex := 1 }] ∧
      t.engine.request.map (fun q => (q.clip, q.index)) = some (8, 0) ∧ t.ring.order = [0] ∧
      t.publisher.claims.map (·.campaign) = [4] ∧
      t.reporting.events.map (fun e => (e.kind, e.code, e.value)) = [(.promoSwitched, 2, 4)] := by decide +kernel

/-- R130, R167: with a reason set the refusal is only noted, and fetching stops at the refused frame all the same. -/
theorem test_abort_noted :
    let t := after .storeAbort { onAir .hold .hold (some .cancel) with engine := (fetching .requesting 0).engine }
    t.sequencer.reason = some .cancel ∧ t.engine.entries.map (fun e => (e.needed, e.fetchIndex)) = [(7, 7)] ∧
      t.reporting.events.map (fun e => (e.kind, e.code)) = [(.releaseNoted, 4)] := by decide +kernel

/-- The fetching part with its request orphaned. -/
def orphaning (st : EngineState) : State :=
  { fetching st 5 with engine :=
      { (fetching st 5).engine with request := some { request11 with orphaned := true } } }

theorem witness_HaltAndResume :
    (∀ st ∈ [EngineState.requesting, .receiving, .backoff, .halted],
      (fetching st 5).engine.state = st ∧ (fetching st 5).engine.request = some request11 ∧
      (fetching st 5).engine.broken = false ∧ (orphaning st).engine.state = st ∧
      (orphaning st).engine.request = some { request11 with orphaned := true }) ∧
    request11.orphaned = false ∧ ({ request11 with orphaned := true } : Request).orphaned = true ∧
    takes (reading (fetching .halted 5)) .resumeFetch [] ∧ takes (reading (orphaning .halted)) .resumeFetch [] ∧
    (fetching .halted 5).engine.condemned = false ∧ (fetching .halted 5).engine.refetch = none ∧
    (∃ g : Engine, g = { (fetching .halted 5).engine with condemned := true } ∧ g.state = .halted ∧
      g.request = some request11 ∧ g.condemned = true) ∧
    State.reset.engine.state ≠ .halted :=
  ⟨by decide +kernel, rfl, rfl, ⟨rfl, rfl, rfl⟩, ⟨rfl, rfl, rfl⟩, rfl, rfl, ⟨_, rfl, rfl, rfl, rfl⟩, by decide⟩

/-- An IDLE engine with frame 8 of junction 11 to fetch and slot 1 the lowest FREE one. -/
theorem witness_HaltAndResume_begins :
    let s := fetching .idle 0
    s.engine.state = .idle ∧
      s.engine.entries.find? (fun e => decide (e.fetchIndex < e.needed)) =
        some { junction := 11, clip := 7, needed := 800, fetchIndex := 8 } ∧
      s.ring.slots[1]? = some none ∧ (∀ k, k < 1 → s.ring.slots[k]? ≠ some none) := by decide +kernel

/-- R171: an orphaned request ends with a RETRY, its slot is freed, and the engine goes on with the next frame. -/
theorem test_orphan_ends :
    let t := after .storeRetry (orphaning .requesting)
    t.reporting.events = [] ∧ t.engine.request.map (fun q => (q.index, q.orphaned)) = some (8, false) ∧
      t.ring.order = [0] := by decide +kernel

theorem reset_ringSound : State.reset.RingSound where
  ring := ⟨by decide, fun i => by simp [State.reset, Ring.reset]⟩
  slots := rfl

theorem witness_RingSoundKept :
    ∃ s t : State, s.BusSound ∧ s.RingSound ∧ step s = .next t ∧ t.ring ≠ s.ring :=
  let b := reset_busSound []
  ⟨{ reading State.reset with
      pending := [.configure cfg.encode (orderCrc OrderKind.configure.code cfg.encode)] }, _,
    ⟨b.listening, b.counting, b.mismatches, b.driving, b.entries, b.held, b.sending,
      (fun _ h => nomatch h), (fun _ => rfl)⟩,
    ⟨reset_ringSound.ring, rfl⟩, rfl, by decide +kernel⟩

/-- Junction 11 on air with the slot of clip frame 1 in a state, and consecutive slips so far. -/
def playing (st : SlotState) (slips : Nat) : State :=
  { onAir .hold .hold none with
    ring := { Ring.reset with
      slots := [some { state := .shown, junction := 11, index := 0, blocks := 135, data := [] },
        some { state := st, junction := 11, index := 1, blocks := 135, data := [] }, none, none]
      order := [0, 1], onAir := some 11, next := 1, consecutive := slips } }

theorem witness_RingAdvances :
    (∀ st ∈ [SlotState.ready, .damaged, .filling], ∀ k ∈ [4, 5],
      let s := playing st k
      s.ring.onAir = some 11 ∧ s.ring.frozen = false ∧ s.ring.fresh = false ∧ s.ring.consecutive = k ∧
        (s.ring.find? (fun u => u.junction == 11 && u.index == s.ring.next)).map (·.state) = some st) ∧
    (∀ st ∈ [SlotState.ready, .damaged],
      (playing st 0).ring.slots[0]? = some (some { state := .shown, junction := 11, index := 0, blocks := 135, data := [] }) ∧
      (playing st 0).ring.slots[1]? = some (some { state := st, junction := 11, index := 1, blocks := 135, data := [] })) ∧
    ({ Engine.reset with entries := [{ junction := 11, clip := 7, needed := 800, fetchIndex := 2 }] } :
      Engine).entries.find? (fun e => e.junction == 11) ≠ none ∧
    (onAir .hold .hold none).ring.find? (fun u => u.junction == 11 && u.index == 1) = none ∧
    (playing .ready 0).sequencer.onAir = some 11 ∧ (playing .ready 0).sequencer.reason = none := by
  decide +kernel

theorem witness_MarkersAreTaken :
    let s := part (lockedAt 500) .member
    s.markerPins.get 0 ≠ .high ∧ s.markerPins.get 0 = .low ∧ s.config = some cfg ∧ s.timing.hfValid = true ∧
      cfg.roles.get 0 = .start ∧ cfg.roles.get 1 = .release ∧ cfg.roles.get 2 = .unused ∧
      Level.high = (cfg.edges.get 0).level ∧ s.markers.get (.start (lineSource 0)) = none ∧
      ({ s.markers with judged := true } : Markers).judged = true ∧ cfg.startCode ≠ 0 ∧ State.reset.config = none := by
  decide

/-- The Marker Unit in a judged frame that carries the start code, at a count. -/
def judging (count : Nat) (held : Option Capture) : State :=
  { part (lockedAt 500) .member with markers := { Markers.reset with
      judged := true, startSeen := true, startCount := count
      starts := { Markers.reset.starts with inBand := held } } }

/-- A capture of frame 400. -/
def capture400 (src : MarkerSource) (overwrite : Bool) : Capture :=
  { source := src, captureFrame := 400, availability := 402, overwrite := overwrite }

/-- Counts at which a capture is taken and at which none is, with the record valid, marked and not valid, and a frame
that is not judged. -/
theorem witness_MarkersAreTaken_judged :
    (∀ n ∈ [0, 1, 2, 3], ∀ h ∈ [none, some (capture400 .inBand false), some (capture400 .inBand true)],
      (judging n h).markers.judged = true ∧ (judging n h).markers.startCount = n ∧
        (judging n h).markers.startSeen = true ∧ (judging n h).markers.releaseSeen = false ∧
        (judging n h).markers.get (.start .inBand) = h) ∧ Markers.reset.judged = false := by decide +kernel

/-- R104, R106: counts 1, 2 and 3 go to 2, 3 and 3, and only the step from 2 to 3 takes a capture, two frames back. -/
theorem test_persistence :
    (∀ n ∈ [1, 3], ((judging n none).judgeFrame 499).markers.starts.inBand = none ∧
      ((judging n none).judgeFrame 499).markers.startCount = min (n + 1) 3) ∧
    ((judging 2 none).judgeFrame 499).markers.startCount = 3 ∧
    ((judging 2 none).judgeFrame 499).markers.releaseCount = 0 ∧
    ((judging 2 none).judgeFrame 499).markers.starts.inBand =
      some { source := .inBand, captureFrame := 497, availability := 499, overwrite := false } ∧
    ((judging 2 (some (capture400 .inBand false))).judgeFrame 499).reporting.alarms.markerOverwrite.detail = some 5 ∧
    ((judging 2 (some (capture400 .inBand true))).judgeFrame 499).reporting = Reporting.reset := by decide +kernel

theorem witness_StartCaptureDisposition :
    let r := { plannedRecord 12 fields12 with state := .primed }
    let s := { part (lockedAt 100000) .member with table := [r] }
    s.sequencer.onAir = none ∧ s.addressed .mk0 = some r ∧ s.addressed .mk1 = none ∧
      ahead r.fields.claimStart 102899 = true ∧ ahead r.fields.claimStart 102900 = false ∧
      ahead 103500 r.fields.latestStart = false ∧ ahead 103501 r.fields.latestStart = true ∧
      (onAir .hold .hold none).sequencer.onAir.isSome := by decide +kernel

/-- Valid records at a boundary with a jump and without, a release with no junction on air, in its first frame, later
with no reason set, and with a reason set. -/
theorem witness_StartCaptureDisposition_handOver :
    (∀ rec ∈ [CaptureRecord.release, .start .mk0, .start .inBand],
      (Markers.reset.set rec (some (capture400 .mk0 false))).get rec = some (capture400 .mk0 false) ∧
      Markers.reset.get rec = none) ∧
    (∃ (jump : Option (Frame × Frame)) (shift : Frame), jump = none ∧ shift = 0) ∧
    (∃ old new shift : Frame, shift = new - old ∧ shift ≠ 0) ∧
    (onAir .hold .hold none).sequencer.onAir = some 11 ∧ (onAir .hold .hold none).sequencer.reason = none ∧
    (onAir .hold .hold none).sequencer.first = some 101000 ∧ (onAir .hold .hold (some .cancel)).sequencer.reason.isSome ∧
    (part (lockedAt 5) .member).sequencer.onAir = none :=
  ⟨by decide +kernel, ⟨none, 0, rfl, rfl⟩, ⟨5, 9, 4, by decide, by decide⟩, rfl, rfl, rfl, rfl, rfl⟩

/-- Junction 11 on air with a release capture whose candidate first frame is given. -/
def releasing (first : Frame) : State :=
  { onAir .hold .hold none with markers := { Markers.reset with
      release := some { capture400 .mk1 false with availability := first - 1 } } }

/-- R111, R131: a release capture is a request one frame after the first frame and is noted at it; one MARKER event
reports it either way, and the record becomes invalid. -/
theorem test_release_hand_over :
    let x := startContext false []
    let late := (releasing 101001).handOver x none .release
    let early := (releasing 101000).handOver x none .release
    late.sequencer.reason = some .releaseMarker ∧ late.markers.release = none ∧
      late.reporting.events.map (fun e => (e.kind, e.code)) = [(.marker, detailBytes 6 2 1)] ∧
      early.sequencer.reason = none ∧ early.markers.release = none ∧
      early.reporting.events.map (·.kind) = [.releaseNoted, .marker] ∧
      ((releasing 100999).handOver x (some (0, 2)) .release).sequencer.reason = some .releaseMarker := by
  decide +kernel

/-- R110, R112, R118: a start capture before the window is EARLY; its record becomes invalid with no start made. -/
theorem test_early_hand_over :
    let r := { plannedRecord 12 fields12 with state := .primed }
    let s := { part (lockedAt 100000) .member with
      table := [r], markers := Markers.reset.set (.start .mk0) (some (capture400 .mk0 true)) }
    let t := s.handOver (startContext false []) none (.start .mk0)
    t.markers = Markers.reset ∧ t.table = [r] ∧
      t.reporting.events.map (fun e => (e.kind, e.junction, e.code, e.value)) =
        [(.marker, some 12, detailBytes 1 1 130, 400)] := by decide +kernel

theorem witness_StartPutsJunctionOnAir :
    let s := withJunction .primed .locked none
    s.junction? 11 = some (junction11 .primed) ∧ s.ring.promoReady 11 = false ∧
      s.claim? 11 .record = some (claim11 .locked none) ∧
      ({ s.ring with slots :=
        [some { state := .ready, junction := 11, index := 0, blocks := 135, data := [] }] } : Ring).promoReady 11 =
          true := by decide +kernel

/-- Junction 12 PRIMED with a fallback, at an HF. -/
def waiting12 (fb : Fallback) (hf : Frame) : State :=
  { part (lockedAt hf) .member with
    table := [{ plannedRecord 12 { fields12 with fallback := some fb } with state := .primed }] }

/-- The start tests at the frames they fall due, and one frame beside; with a junction on air and without. -/
theorem witness_StartPutsJunctionOnAir_tests :
    (fields11.trigger = .timed ∧ (lockedAt 101000).hf = fields11.snom ∧ (lockedAt 101001).hf ≠ fields11.snom) ∧
    (∀ fb ∈ [Fallback.lateStart, .abandon], ∃ r ∈ (waiting12 fb 103500).table,
      (waiting12 fb 103500).junction? r.number = some r ∧ r.fields.trigger = .marked ∧ r.fields.fallback = some fb ∧
      (waiting12 fb 103500).hf =
        r.fields.snom + BitVec.ofNat 24 r.fields.hold - BitVec.ofNat 24 r.fields.minHold) ∧
    (waiting12 .abandon 103500).sequencer.onAir = none ∧ (onAir .hold .hold none).sequencer.onAir.isSome := by
  decide +kernel

/-- R119, R120: without its promo a LATE_START record ends at its latest start; an ABANDON one ends one frame later,
when no junction was on air. -/
theorem test_start_tests :
    let x := startContext false []
    let ends := fun (fb : Fallback) (hf : Frame) (idle : Bool) =>
      let s := waiting12 fb hf
      ((s.table.map (s.testStart x idle)).map (fun t => t.reporting.events.map (·.code)))
    ends .lateStart 103500 true = [[detailBytes 4 9 0]] ∧ ends .lateStart 103501 true = [[]] ∧
      ends .abandon 103500 true = [[]] ∧ ends .abandon 103501 true = [[detailBytes 4 8 0]] ∧
      ends .abandon 103501 false = [[]] := by decide +kernel

theorem witness_ReleaseBeginsAndEnds :
    let s := onAir .squeezeIn .squeezeIn none
    s.junction? 11 = some (junction11 .squeezeIn) ∧ s.sequencer.phase = .squeezeIn ∧
      s.sequencer.ramp = fields11.rin ∧ fields11.rin ≠ 0 ∧ s.sequencer.ramp * fields11.rout / fields11.rin ≠ 0 ∧
      s.claim? 11 .record = some (claim11 .onAir none) ∧
      (let e := onAir .release .release (some .ordinary)
       e.junction? 11 = some (junction11 .release) ∧ e.sequencer.onAir = some 11 ∧
         e.sequencer.reason = some .ordinary ∧ e.reporting.events.length < 31) := by decide +kernel

/-- Junction 11 on air in a phase, at counters. -/
def atCounters (ph : Phase) (ramp hold release : Nat) : State :=
  let s := onAir ph .hold none
  { s with sequencer := { s.sequencer with ramp := ramp, holdLeft := hold, releaseLeft := release } }

/-- Each phase at the counter values where what the advance does changes, a fresh start, and no junction on air. -/
theorem witness_ReleaseBeginsAndEnds_advance :
    (∀ p ∈ [23, 24, 25], (atCounters .squeezeIn p 0 0).sequencer.ramp = p ∧
      (atCounters .squeezeIn p 0 0).sequencer.phase = .squeezeIn ∧ (atCounters .squeezeIn p 0 0).sequencer.reason = none) ∧
    (∀ n ∈ [1, 2], (atCounters .hold 0 n 0).sequencer.holdLeft = n ∧ (atCounters .hold 0 n 0).sequencer.phase = .hold) ∧
    (∀ n ∈ [1, 2], (atCounters .release 0 0 n).sequencer.releaseLeft = n ∧
      (atCounters .release 0 0 n).sequencer.phase = .release) ∧
    (atCounters .hold 0 1 0).sequencer.onAir = some (junction11 .hold).number ∧
    (atCounters .hold 0 1 0).junction? (junction11 .hold).number = some (junction11 .hold) ∧
    (atCounters .hold 0 1 0).sequencer.fresh = false ∧ fields11.rin = 25 ∧
    (∃ q : Sequencer, q = { Sequencer.reset with onAir := some 11, fresh := true } ∧ q.onAir.isSome ∧ q.fresh = true) ∧
    Sequencer.reset.onAir = none ∧ (onAir .hold .hold (some .cancel)).sequencer.reason = some .cancel :=
  ⟨by decide, by decide, by decide, rfl, rfl, rfl, rfl, ⟨_, rfl, rfl, rfl⟩, rfl, rfl⟩

/-- A release that is loaded as 0, from HOLD with Rout 0, and the event room of its clause. -/
theorem witness_ReleaseBeginsAndEnds_none_left :
    let r := { junction11 .hold with fields := { fields11 with rout := 0 } }
    let s : State := { onAir .hold .hold (some .ordinary) with table := [r] }
    s.junction? r.number = some r ∧ (if s.sequencer.phase = .squeezeIn then s.sequencer.ramp * r.fields.rout / r.fields.rin
      else r.fields.rout) = 0 ∧ s.sequencer.onAir = some r.number ∧ s.sequencer.reason = some .ordinary ∧
      s.reporting.events.length < 30 := by decide +kernel

/-- R125 to R127: p goes to Rin and then HOLD begins at A; the last hold frame is followed by a release of Rout frames,
and the last release frame by the end of the junction. -/
theorem test_advance :
    let next := fun (s : State) => (s.advance.sequencer.phase, s.advance.sequencer.ramp, s.advance.sequencer.holdLeft,
      s.advance.sequencer.releaseLeft)
    next (atCounters .squeezeIn 24 0 0) = (.squeezeIn, 25, 0, 0) ∧
      next (atCounters .squeezeIn 25 0 0) = (.hold, 0, 750, 0) ∧ next (atCounters .hold 0 2 0) = (.hold, 0, 1, 0) ∧
      next (atCounters .hold 0 1 0) = (.release, 0, 0, 25) ∧ next (atCounters .release 0 0 2) = (.release, 0, 0, 1) := by
  decide +kernel

/-- R128, R132: a reversal loaded as 0 ends the junction at once, after RELEASE_BEGUN. -/
theorem test_release_of_no_frame :
    let s := onAir .squeezeIn .squeezeIn (some .cancel)
    let t := ({ s with sequencer := { s.sequencer with ramp := 0 } }).beginRelease (junction11 .squeezeIn) .cancel
    t.sequencer.onAir = none ∧ t.compositor = .passThrough ∧ t.table = [] ∧
      t.reporting.events.map (·.kind) = [.releaseBegun, .promoCounts, .junctionEnd] := by decide +kernel

theorem witness_CueActionsDriveLines :
    ({ State.reset.sequencer with pulse := ⟨true, false, false, false⟩ } : Sequencer).pulse.get 0 = true ∧
      State.reset.sequencer.pulse.get 1 = false := by decide

theorem witness_HoldFrameShowsLayout :
    let s := onAir .hold .hold none
    s.compositor = .junction ∧ s.sequencer.phase = .hold ∧ s.sequencer.onAir = some (junction11 .hold).number ∧
      s.junction? (junction11 .hold).number = some (junction11 .hold) := by decide

/-- A position in a window and one outside it, a fraction of 1 and one below, and the pass-through output. -/
theorem witness_HoldFrameShowsLayout_positions :
    let w : Window := { x := 960, y := 540, width := 960, height := 540 }
    let inside := fun (u v : Nat) => w.x ≤ u ∧ u < w.x + w.width ∧ w.y ≤ v ∧ v < w.y + w.height
    inside 960 540 ∧ inside 1919 1079 ∧ ¬ inside 959 540 ∧ ¬ inside 1920 1079 ∧
      (onAir .hold .hold none).frameView.isSome ∧ (onAir .squeezeIn .squeezeIn none).frameView.isSome ∧
      State.reset.compositor = .passThrough := by decide +kernel

/-- R152: halfway between 100 and 200 a component is 150; at 1/3 it is rounded down. -/
theorem test_blend : blend 1 2 200 100 = 150 ∧ blend 1 3 200 100 = 133 ∧ blend 5 5 200 100 = 200 := by decide

theorem witness_RampedWindowStaysInGrid :
    ({ x := 1856, y := 1044, width := 64, height := 36 } : Window).inGrid = true ∧
      ({ x := 0, y := 0, width := 1920, height := 1080 } : Window).inGrid = true ∧ 1 ≤ 1 ∧ 0 < 1 := by decide

theorem witness_RampedWindowStaysInGrid_views :
    ∀ ph ∈ [Phase.squeezeIn, .release], let s := onAir ph .hold none
      s.compositor = .junction ∧ s.sequencer.phase = ph ∧ s.sequencer.onAir = some (junction11 .hold).number ∧
      s.junction? (junction11 .hold).number = some (junction11 .hold) := by decide +kernel

/-- R153: one step of 3 towards a window of 1,000 columns at 10: floor(1920 − 920/3) = 1,613 and floor(10/3) = 3. -/
theorem test_ramped_window :
    ({ x := 10, y := 0, width := 1000, height := 1080 } : Window).fromFull 1 3 =
      { x := 3, y := 0, width := 1613, height := 1080 } := by decide +kernel

end Sys2Proof.Tests
end

/-! PROOFS. Count words and the jump candidate in LOCKED (R5, R10). -/

namespace Sys2Proof.Machine

/-! ### The count track (R5) -/

@[simp] theorem continuesRun_iff (last : Option Frame) (v : Frame) :
    continuesRun last v = true ↔ Continues last v := by
  cases last <;> simp [continuesRun, Continues]

theorem Timing.track_trackTook (t : Timing) (w : CountWord) : t.TrackTook (t.track w) w := by
  cases w with
  | good v => exact ⟨rfl, rfl, fun h => by simp [Timing.track, h], fun h => by simp [Timing.track, h]⟩
  | bad => exact ⟨rfl, rfl, rfl⟩

theorem Timing.track_frame (t : Timing) (w : CountWord) :
    t.track w = { t with
      trackRun := (t.track w).trackRun, trackLast := (t.track w).trackLast
      trackFresh := (t.track w).trackFresh } := by
  cases w <;> rfl

@[simp] theorem Timing.track_hf (t : Timing) (w : CountWord) : (t.track w).hf = t.hf := by
  cases w <;> rfl

@[simp] theorem Timing.track_jumpRun (t : Timing) (w : CountWord) : (t.track w).jumpRun = t.jumpRun := by
  cases w <;> rfl

@[simp] theorem Timing.track_jumpLast (t : Timing) (w : CountWord) : (t.track w).jumpLast = t.jumpLast := by
  cases w <;> rfl

@[simp] theorem Timing.track_pendingAdoption (t : Timing) (w : CountWord) :
    (t.track w).pendingAdoption = t.pendingAdoption := by
  cases w <;> rfl

/-! ### The jump candidate (R10): an equation for each way a word can go -/

theorem Timing.feedJump_third {t : Timing} {v : Frame} (hc : Continues t.jumpLast v) (h3 : t.jumpRun + 1 = 3) :
    t.feedJump v = { t with jumpRun := 0, jumpLast := some v, pendingAdoption := some v } := by
  simp [Timing.feedJump, hc, h3]

theorem Timing.feedJump_continuing {t : Timing} {v : Frame} (hc : Continues t.jumpLast v)
    (h3 : t.jumpRun + 1 ≠ 3) :
    t.feedJump v = { t with
      jumpRun := t.jumpRun + 1, jumpLast := some v
      pendingAdoption := if t.pendingAdoption.isSome then some v else none } := by
  simp only [Timing.feedJump, continuesRun_iff, hc, h3, if_true, if_false]

theorem Timing.feedJump_new {t : Timing} {v : Frame} (hc : ¬ Continues t.jumpLast v) :
    t.feedJump v = { t with jumpRun := 1, jumpLast := some v, pendingAdoption := none } := by
  simp [Timing.feedJump, hc]

@[simp] theorem Timing.feedJump_jumpLast (t : Timing) (v : Frame) : (t.feedJump v).jumpLast = some v := by
  by_cases hc : Continues t.jumpLast v
  · by_cases h3 : t.jumpRun + 1 = 3
    · rw [Timing.feedJump_third hc h3]
    · rw [Timing.feedJump_continuing hc h3]
  · rw [Timing.feedJump_new hc]

/-- A pending adoption is replaced by the word that continues the candidate, at its third word or not. -/
theorem Timing.feedJump_replaces_pending {t : Timing} {v : Frame} (hc : Continues t.jumpLast v)
    (hp : t.pendingAdoption.isSome) : (t.feedJump v).pendingAdoption = some v := by
  by_cases h3 : t.jumpRun + 1 = 3
  · rw [Timing.feedJump_third hc h3]
  · rw [Timing.feedJump_continuing hc h3]; exact if_pos hp

theorem Timing.feedJump_frame (t : Timing) (v : Frame) :
    t.feedJump v = { t with
      jumpRun := (t.feedJump v).jumpRun, jumpLast := (t.feedJump v).jumpLast
      pendingAdoption := (t.feedJump v).pendingAdoption } := by
  by_cases hc : Continues t.jumpLast v
  · by_cases h3 : t.jumpRun + 1 = 3
    · rw [Timing.feedJump_third hc h3]
    · rw [Timing.feedJump_continuing hc h3]
  · rw [Timing.feedJump_new hc]

/-- A word that feeds the jump candidate, beside the count track, and continues it. -/
theorem Timing.feedJump_track_continues {t : Timing} {v : Frame} (w : CountWord) (hc : Continues t.jumpLast v) :
    (t.jumpRun + 1 = 3 → ((t.track w).feedJump v).jumpRun = 0 ∧
      ((t.track w).feedJump v).pendingAdoption = some v) ∧
    (t.jumpRun + 1 ≠ 3 → ((t.track w).feedJump v).jumpRun = t.jumpRun + 1) ∧
    (t.pendingAdoption.isSome → ((t.track w).feedJump v).pendingAdoption = some v) ∧
    (t.jumpRun + 1 ≠ 3 → t.pendingAdoption = none →
      ((t.track w).feedJump v).pendingAdoption = none) := by
  have hc' : Continues (t.track w).jumpLast v := by simpa using hc
  refine ⟨fun h3 => ?third, fun h3 => ?longer, fun hp => ?replaces, fun h3 hp => ?none⟩
  case third => rw [Timing.feedJump_third hc' (by simpa using h3)]; exact ⟨rfl, rfl⟩
  case longer => rw [Timing.feedJump_continuing hc' (by simpa using h3)]; simp
  case replaces => exact Timing.feedJump_replaces_pending hc' (by simpa using hp)
  case none => rw [Timing.feedJump_continuing hc' (by simpa using h3)]; simp [hp]

/-! ### The comparison with HF + 1 (R10) -/

theorem Timing.compareWord_bad (t : Timing) : t.compareWord .bad = t.clearJump := rfl

theorem Timing.compareWord_agrees {t : Timing} {v : Frame} (h : v = t.hf + 1) :
    t.compareWord (.good v) = t.clearJump := if_pos h

theorem Timing.compareWord_disagrees {t : Timing} {v : Frame} (h : v ≠ t.hf + 1) :
    t.compareWord (.good v) = t.feedJump v := if_neg h

theorem Timing.compareWord_frame (t : Timing) (w : CountWord) :
    t.compareWord w = { t with
      jumpRun := (t.compareWord w).jumpRun, jumpLast := (t.compareWord w).jumpLast
      pendingAdoption := (t.compareWord w).pendingAdoption } := by
  cases w with
  | bad => rfl
  | good v =>
    by_cases h : v = t.hf + 1
    · rw [Timing.compareWord_agrees h]; rfl
    · rw [Timing.compareWord_disagrees h]; exact t.feedJump_frame v

/-- The comparison leaves the count track as it is. -/
theorem Timing.TrackTook.compareWord {q t : Timing} {w : CountWord} (h : q.TrackTook t w) :
    q.TrackTook (t.compareWord w) w := by
  rw [t.compareWord_frame]
  cases w <;> exact h

/-! ### The command -/

theorem Timing.word_locked {t : Timing} (w : CountWord) (h : t.refState = .locked) :
    t.word w = (t.track w).compareWord w := if_pos h

theorem exec_countWord (w : CountWord) (s : State) :
    exec (.countWord w) s = .next { s with timing := s.timing.word w } := rfl

/-- Settles O6: the count track takes the word, then the comparison moves the jump candidate alone. -/
theorem countWordInLocked : Obligations.CountWordInLocked := by
  intro s w hl
  refine ⟨(s.timing.track w).compareWord w, ?step, (s.timing.track_trackTook w).compareWord, ?frame, ?bad, ?good⟩
  case step => rw [exec_countWord, Timing.word_locked w hl]
  case frame => rw [Timing.compareWord_frame, s.timing.track_frame]
  case bad => rintro rfl; exact ⟨rfl, rfl, rfl⟩
  case good =>
    rintro v rfl
    have hhf := s.timing.track_hf (.good v)
    refine ⟨fun ha => ?agrees, fun hd => ?last, fun hd hc => ?continues, fun hd hc => ?new⟩
    case agrees => rw [Timing.compareWord_agrees (by rw [hhf, ha])]; exact ⟨rfl, rfl, rfl⟩
    case last => rw [Timing.compareWord_disagrees (by rwa [hhf]), Timing.feedJump_jumpLast]
    case continues =>
      rw [Timing.compareWord_disagrees (by rwa [hhf])]
      exact Timing.feedJump_track_continues _ hc
    case new =>
      rw [Timing.compareWord_disagrees (by rwa [hhf]), Timing.feedJump_new (by simpa using hc)]
      exact ⟨rfl, rfl⟩

end Sys2Proof.Machine

/-! PROOFS. The end of the own slot outside MEMBER (R17, R18). -/

namespace Sys2Proof.Machine

/-- The bus once the slot under way in cycle `cy` has ended, before anything is made of what was heard. -/
def State.pastSlot (s : State) (cy : Cycle) : State :=
  { s with bus := { s.bus with cycle := some { cy with nextSlot := cy.nextSlot + 1 } } }

@[simp] theorem State.pastSlot_station (s : State) (cy : Cycle) : (s.pastSlot cy).bus.station = s.bus.station := rfl

/-- SLOT_END with a slot left in the open cycle ends that slot (R17). -/
theorem exec_slotEnd {s : State} {c : Configuration} {cy : Cycle} (heard : SlotHeard) (hc : s.config = some c)
    (hcy : s.bus.cycle = some cy) (hlt : cy.nextSlot < c.slots) :
    exec (.slotEnd heard) s = .next (s.slotEnded c.station cy heard) := by
  have hdispatch : exec (.slotEnd heard) s = execSlotEnd heard s := rfl
  simp [hdispatch, execSlotEnd, hc, hcy, hlt]

theorem State.slotEnded_own {own : Nat} {cy : Cycle} (s : State) (heard : SlotHeard) (h : cy.nextSlot = own) :
    s.slotEnded own cy heard = (s.pastSlot cy).ownSlotEnd own heard := if_pos h

/-- Only a MEMBER station reads its own slot back; every other one discards it (R18, R19). -/
theorem State.ownSlotEnd_of_not_member {s : State} (own : Nat) (heard : SlotHeard) (h : s.bus.station ≠ .member) :
    s.ownSlotEnd own heard = s := by
  unfold State.ownSlotEnd
  split
  case h_1 hm _ => exact absurd hm h
  case h_2 => rfl

/-- Settles O13: LISTENING and SILENT(CLASH) are not MEMBER, so of the slot's end only the slot pointer is left. -/
theorem ownSlotDiscarded : Obligations.OwnSlotDiscarded := by
  intro s c cy heard hc hcy hlt hown hst
  have hnot : (s.pastSlot cy).bus.station ≠ .member := by
    rw [State.pastSlot_station]
    rcases hst with hl | hs
    · simp [hl]
    · simp [hs]
  calc exec (.slotEnd heard) s
      = .next (s.slotEnded c.station cy heard) := exec_slotEnd heard hc hcy hlt
    _ = .next ((s.pastSlot cy).ownSlotEnd c.station heard) := by rw [s.slotEnded_own heard hown]
    _ = .next (s.pastSlot cy) := by rw [State.ownSlotEnd_of_not_member _ heard hnot]

end Sys2Proof.Machine

/-! PROOFS. The promo in use of an amended field set and the claim-keeping test (R43, Section 3.6). -/

namespace Sys2Proof.Machine

/-! ### The campaign in use -/

@[simp] theorem FieldSet.campaignOf_primary (f : FieldSet) : f.campaignOf .primary = f.primary.campaign := rfl

theorem FieldSet.campaignOf_alternate {f : FieldSet} {a : Promo} (ha : f.alternate = some a) :
    f.campaignOf .alternate = a.campaign := by
  simp [FieldSet.campaignOf, ha]

/-! ### The promo in use after an amendment: an equation for each case of R43 -/

@[simp] theorem amendedPromo_primary (f : FieldSet) : amendedPromo .primary f = .primary := rfl

theorem amendedPromo_alternate_kept {f : FieldSet} {a : Promo} (ha : f.alternate = some a) :
    amendedPromo .alternate f = .alternate := by
  simp [amendedPromo, ha]

theorem amendedPromo_alternate_removed {f : FieldSet} (ha : f.alternate = none) :
    amendedPromo .alternate f = .primary := by
  simp [amendedPromo, ha]

/-! ### The claim-keeping test -/

/-- The record's campaign on the right is the one in use before the amendment, whatever promo `p` the amended fields
take. -/
theorem Junction.keepsClaim_iff (r : Junction) (f : FieldSet) (p : PromoInUse) :
    r.keepsClaim f p = true ↔
      liesWithin f.claimStart f.claimEnd r.fields.claimStart r.fields.claimEnd = true ∧ f.campaignOf p = r.campaign := by
  simp [Junction.keepsClaim]

/-- Settles O34: a case for each promo in use and each new field set with or without an alternate, and the
claim-keeping test. -/
theorem amendSetsPromoInUse : Obligations.AmendSetsPromoInUse := by
  intro r f
  refine ⟨fun hp => ?primary, fun a hp ha => ?alternateKept, fun hp ha => ?alternateRemoved, r.keepsClaim_iff f _⟩
  case primary => rw [hp, amendedPromo_primary]; exact ⟨rfl, f.campaignOf_primary⟩
  case alternateKept =>
    rw [hp, amendedPromo_alternate_kept ha]
    exact ⟨rfl, FieldSet.campaignOf_alternate ha⟩
  case alternateRemoved =>
    rw [hp, amendedPromo_alternate_removed ha]
    exact ⟨rfl, f.campaignOf_primary⟩

end Sys2Proof.Machine

/-! PROOFS. Intervals on the circle of frames, and the campaign and budget tests of the seating walk (R2, R67, R68). -/

namespace Sys2Proof.Machine

/-! ### Intervals (R2) -/

theorem holds_iff {a b x : Frame} : holds a b x = true ↔ (x - a).toNat < (b - a).toNat := decide_eq_true_iff

theorem holds_stop (a b : Frame) : holds a b b = false := by simp [holds]

theorem holds_start_iff {a b : Frame} : holds a b a = true ↔ a ≠ b := by
  rw [holds_iff]; bv_omega

theorem ne_of_holds {a b x : Frame} (h : holds a b x = true) : a ≠ b := by
  rintro rfl
  simp [holds] at h

/-- An interval that holds `x` holds every frame from its start up to `x`: each that is no further behind `x` than the
start is. -/
theorem holds_of_sub_le {a b x y : Frame} (hx : holds a b x = true) (hy : (x - y).toNat ≤ (x - a).toNat) :
    holds a b y = true := by
  rw [holds_iff] at hx ⊢
  have hsplit : (y - a).toNat = (x - a).toNat - (x - y).toNat := by bv_omega
  omega

/-- A frame outside an interval is further behind a frame of it than its start is. -/
theorem sub_start_lt_of_not_holds {a b x y : Frame} (hx : holds a b x = true) (hy : ¬ holds a b y = true) :
    (x - a).toNat < (x - y).toNat := by
  rw [holds_iff] at hx hy
  bv_omega

theorem intersects_iff {a b c d : Frame} :
    intersects a b c d = true ↔ a ≠ b ∧ c ≠ d ∧ (holds c d a = true ∨ holds a b c = true) := by
  simp [intersects, and_assoc]

/-- Of two intervals with a frame in common, the one whose start is nearer behind that frame starts in the other. -/
theorem intersects_iff_exists_holds {a b c d : Frame} :
    intersects a b c d = true ↔ ∃ x, holds a b x = true ∧ holds c d x = true := by
  rw [intersects_iff]
  constructor
  · rintro ⟨hab, hcd, hstart | hstart⟩
    · exact ⟨a, holds_start_iff.2 hab, hstart⟩
    · exact ⟨c, hstart, holds_start_iff.2 hcd⟩
  · rintro ⟨x, hx, hx'⟩
    refine ⟨ne_of_holds hx, ne_of_holds hx', ?_⟩
    rcases Nat.le_total (x - a).toNat (x - c).toNat with hle | hle
    · exact .inl (holds_of_sub_le hx' hle)
    · exact .inr (holds_of_sub_le hx hle)

/-- An interval does not reach round the circle to the start of one that ends where it starts, the two together being
shorter than the circle. -/
theorem holds_start_of_touching {a b d : Frame} (hab : (b - a).toNat ≤ 8388607) (hbd : (d - b).toNat ≤ 8388607)
    (hne : a ≠ b) : holds b d a = false := by
  have hround : (a - b).toNat = 16777216 - (b - a).toNat := by bv_omega
  refine Bool.eq_false_iff.2 fun h => ?_
  rw [holds_iff] at h
  omega

theorem intersects_of_touching {a b d : Frame} (hab : (b - a).toNat ≤ 8388607) (hbd : (d - b).toNat ≤ 8388607) :
    intersects a b b d = false := by
  refine Bool.eq_false_iff.2 fun h => ?_
  obtain ⟨hne, -, hstart | hstop⟩ := intersects_iff.1 h
  · simp [holds_start_of_touching hab hbd hne] at hstart
  · simp [holds_stop] at hstop

theorem OwnedClaim.meets_iff {t k : OwnedClaim} :
    t.meets k = true ↔ ∃ x, t.holdsFrame x = true ∧ k.holdsFrame x = true := intersects_iff_exists_holds

theorem OwnedClaim.meets_of_touching {a b : OwnedClaim} (htouch : a.claim.stop = b.claim.start)
    (ha : (a.claim.stop - a.claim.start).toNat ≤ 8388607) (hb : (b.claim.stop - b.claim.start).toNat ≤ 8388607) :
    a.meets b = false := by
  rw [← htouch] at hb
  rw [OwnedClaim.meets, ← htouch]
  exact intersects_of_touching ha hb

/-! ### The campaign test (R67) -/

theorem passesCampaign_zero {k : OwnedClaim} (placed : List OwnedClaim) (h : k.claim.campaign = 0) :
    passesCampaign placed k = true := by
  simp [passesCampaign, h]

theorem passesCampaign_iff {k : OwnedClaim} (placed : List OwnedClaim) (h : k.claim.campaign ≠ 0) :
    passesCampaign placed k = true ↔
      ∀ t ∈ placed, t.owner ≠ k.owner → t.claim.campaign = k.claim.campaign → t.meets k = false := by
  rw [passesCampaign, beq_eq_false_iff_ne.2 h, Bool.false_or]
  simp

/-- Settles O24: the test unfolds to its rule, claims of the own owner never fail it, and of two claims that touch
neither holds the start of the other. -/
theorem campaignTest : Obligations.CampaignTest := by
  refine ⟨fun placed _ => passesCampaign_zero placed, fun placed _ => passesCampaign_iff placed,
    fun placed k hown => ?own, fun _ _ => OwnedClaim.meets_of_touching⟩
  case own =>
    by_cases hzero : k.claim.campaign = 0
    · exact passesCampaign_zero placed hzero
    · exact (passesCampaign_iff placed hzero).2 fun t ht hother => absurd (hown t ht) hother

/-! ### The budget test (R68) -/

theorem passesBudget_iff {limit : Nat} {placed : List OwnedClaim} {k : OwnedClaim} :
    passesBudget limit placed k = true ↔ ∀ y ∈ criticalFrames placed k, othersAt placed k.owner y < limit := by
  simp [passesBudget]

theorem mem_criticalFrames {placed : List OwnedClaim} {k : OwnedClaim} {y : Frame} :
    y ∈ criticalFrames placed k ↔
      (y = k.claim.start ∨ ∃ t ∈ placed, t.claim.start = y) ∧ k.holdsFrame y = true := by
  simp [criticalFrames]

/-- Where every seated claim that holds `x` holds `y` too, `y` counts at least as many other owners. -/
theorem othersAt_le {placed : List OwnedClaim} {x y : Frame} (owner : Nat)
    (h : ∀ t ∈ placed, t.holdsFrame x = true → t.holdsFrame y = true) :
    othersAt placed owner x ≤ othersAt placed owner y := by
  refine List.countP_mono_left fun o _ ho => ?_
  simp only [Bool.and_eq_true, List.any_eq_true] at ho ⊢
  obtain ⟨hother, t, ht, howner, hx⟩ := ho
  exact ⟨hother, t, ht, howner, h t ht hx⟩

/-- The critical frame nearest behind a frame of the claim's interval is held by every seated claim that holds that
frame: such a claim starts at a critical frame, or outside the interval and so before the claim does. -/
theorem exists_criticalFrame {k : OwnedClaim} {x : Frame} (placed : List OwnedClaim) (hx : k.holdsFrame x = true) :
    ∃ y ∈ criticalFrames placed k, ∀ t ∈ placed, t.holdsFrame x = true → t.holdsFrame y = true := by
  have hstart : k.claim.start ∈ criticalFrames placed k :=
    mem_criticalFrames.2 ⟨.inl rfl, holds_start_iff.2 (ne_of_holds hx)⟩
  obtain ⟨y, hy, hnearest⟩ := (criticalFrames placed k).toFinset.exists_min_image (fun y => (x - y).toNat)
    ⟨_, List.mem_toFinset.2 hstart⟩
  simp only [List.mem_toFinset] at hy hnearest
  refine ⟨y, hy, fun t ht htx => holds_of_sub_le htx ?_⟩
  by_cases hin : k.holdsFrame t.claim.start = true
  · exact hnearest _ (mem_criticalFrames.2 ⟨.inr ⟨t, ht, rfl⟩, hin⟩)
  · exact (hnearest _ hstart).trans (sub_start_lt_of_not_holds hx hin).le

/-- The test at the critical frames is the test at every frame. -/
theorem passesBudget_iff_forall_frame {limit : Nat} {placed : List OwnedClaim} {k : OwnedClaim} :
    passesBudget limit placed k = true ↔
      ∀ x, k.holdsFrame x = true → othersAt placed k.owner x < limit := by
  rw [passesBudget_iff]
  constructor
  · intro hcritical x hx
    obtain ⟨y, hy, hall⟩ := exists_criticalFrame placed hx
    exact (othersAt_le k.owner hall).trans_lt (hcritical y hy)
  · intro hframe y hy
    exact hframe y (mem_criticalFrames.1 hy).2

/-- Among owners that are stations, a count of 0 at a frame says that no other owner's seated claim holds it. -/
theorem othersAt_lt_one_iff {placed : List OwnedClaim} {owner : Nat} {x : Frame} (h16 : ∀ t ∈ placed, t.owner < 16) :
    othersAt placed owner x < 1 ↔ ∀ t ∈ placed, t.owner ≠ owner → t.holdsFrame x = false := by
  simp only [othersAt, Nat.lt_one_iff, List.countP_eq_zero, stations, List.mem_range, Bool.and_eq_true,
    List.any_eq_true, bne_iff_ne, beq_iff_eq]
  constructor
  · intro hnone t ht hother
    exact Bool.eq_false_iff.2 fun hx => hnone t.owner (h16 t ht) ⟨hother, t, ht, rfl, hx⟩
  · rintro hnone o - ⟨hother, t, ht, rfl, hx⟩
    simp [hnone t ht hother] at hx

theorem passesBudget_one_iff {placed : List OwnedClaim} {k : OwnedClaim} (h16 : ∀ t ∈ placed, t.owner < 16) :
    passesBudget 1 placed k = true ↔ ∀ t ∈ placed, t.owner ≠ k.owner → t.meets k = false := by
  simp only [passesBudget_iff_forall_frame, othersAt_lt_one_iff h16]
  constructor
  · intro hframe t ht hother
    refine Bool.eq_false_iff.2 fun hmeets => ?_
    obtain ⟨x, htx, hkx⟩ := OwnedClaim.meets_iff.1 hmeets
    simp [hframe x hkx t ht hother] at htx
  · intro hmeets x hkx t ht hother
    refine Bool.eq_false_iff.2 fun htx => ?_
    exact Bool.eq_false_iff.1 (hmeets t ht hother) (OwnedClaim.meets_iff.2 ⟨x, htx, hkx⟩)

/-- Settles O25: the critical frames stand for all frames of the interval, and a frame in common is an intersection. -/
theorem budgetTest : Obligations.BudgetTest :=
  ⟨fun _ _ _ => passesBudget_iff_forall_frame, fun _ _ h16 _ => passesBudget_one_iff h16⟩

end Sys2Proof.Machine

/-! PROOFS. The cue points' actions on their lines and the pulse returns of an advance (R116, R135). -/

namespace Sys2Proof.Machine

/-! ### The action of a cue point (R135) -/

theorem otherLevel_ne (l : Level) : otherLevel l ≠ l := by cases l <;> decide

@[simp] theorem Sequencer.drive_lines_get (q : Sequencer) (i j : Fin 4) (l : Level) (b : Bool) :
    (q.drive i l b).lines.get j = if j = i then l else q.lines.get j := Four_get_set q.lines i j l

@[simp] theorem Sequencer.drive_pulse_get (q : Sequencer) (i j : Fin 4) (l : Level) (b : Bool) :
    (q.drive i l b).pulse.get j = if j = i then b else q.pulse.get j := Four_get_set q.pulse i j b

/-- The level to which an action drives a line with rest level `rest` that is at `now` (the table of R135). -/
def CueAction.level (rest now : Level) : CueAction → Level
  | .setActive | .pulse => otherLevel rest
  | .clear => rest
  | .toggle => otherLevel now

theorem Sequencer.act_eq_drive (q : Sequencer) (rest : Level) (i : Fin 4) (a : CueAction) :
    q.act rest i a = q.drive i (a.level rest (q.lines.get i)) (a == .pulse) := by cases a <;> rfl

theorem Sequencer.act_lines_get (q : Sequencer) (rest : Level) (i j : Fin 4) (a : CueAction) :
    (q.act rest i a).lines.get j = if j = i then a.level rest (q.lines.get i) else q.lines.get j := by
  rw [act_eq_drive, drive_lines_get]

theorem Sequencer.act_pulse_get (q : Sequencer) (rest : Level) (i j : Fin 4) (a : CueAction) :
    (q.act rest i a).pulse.get j = if j = i then a == .pulse else q.pulse.get j := by
  rw [act_eq_drive, drive_pulse_get]

/-! ### The pulse returns (R116) -/

/-- The level of a line once its pulse return is made: the rest level when the return is set, else its own. -/
def State.returnedLevel (s : State) (i : Fin 4) : Level :=
  if s.sequencer.pulse.get i then s.restLevel i else s.sequencer.lines.get i

theorem State.returnLine_pulse_get (s : State) (k i : Fin 4) :
    (s.returnLine k).sequencer.pulse.get i = if i = k then false else s.sequencer.pulse.get i := by
  unfold State.returnLine
  split
  case isTrue => exact Sequencer.drive_pulse_get _ _ _ _ _
  case isFalse hk => grind

theorem State.returnLine_lines_get (s : State) (k i : Fin 4) :
    (s.returnLine k).sequencer.lines.get i = if i = k then s.returnedLevel i else s.sequencer.lines.get i := by
  unfold State.returnLine State.returnedLevel
  split
  case isTrue hk =>
    rw [Sequencer.drive_lines_get]
    grind
  case isFalse hk => grind

theorem State.returnLine_restLevel (s : State) (k i : Fin 4) : (s.returnLine k).restLevel i = s.restLevel i := by
  obtain ⟨q, hq, -⟩ := s.returnLine_eq k
  rw [hq]
  rfl

/-- Making one line's return does not change where any line ends up. -/
theorem State.returnLine_returnedLevel (s : State) (k i : Fin 4) :
    (s.returnLine k).returnedLevel i = s.returnedLevel i := by
  by_cases h : i = k
  · simp [returnedLevel, returnLine_pulse_get, returnLine_lines_get, h]
  · simp [returnedLevel, returnLine_pulse_get, returnLine_lines_get, returnLine_restLevel, h]

theorem State.pulseReturns_pulse_get (s : State) (i : Fin 4) : s.pulseReturns.sequencer.pulse.get i = false := by
  simp only [pulseReturns, returnLine_pulse_get]
  fin_cases i <;> rfl

theorem State.pulseReturns_lines_get (s : State) (i : Fin 4) :
    s.pulseReturns.sequencer.lines.get i = s.returnedLevel i :=
  calc s.pulseReturns.sequencer.lines.get i
      = s.pulseReturns.returnedLevel i := by simp [returnedLevel, pulseReturns_pulse_get]
    _ = s.returnedLevel i := by simp only [pulseReturns, returnLine_returnedLevel]

/-! ### Two cue points of one offset on one line -/

/-- Of two cue points of one offset on one line, the later one alone decides whether the next advance returns it. -/
theorem State.applyCues_pair_pulseReturns (s : State) (i : Fin 4) (j : Nat) (a b : CueAction) :
    (s.applyCues j [{ offset := j, line := i, action := a }, { offset := j, line := i, action := b }]
      ).pulseReturns.sequencer.lines.get i =
      if b = .pulse then s.restLevel i
      else b.level (s.restLevel i) (a.level (s.restLevel i) (s.sequencer.lines.get i)) := by
  have hpair : s.applyCues j [{ offset := j, line := i, action := a }, { offset := j, line := i, action := b }] =
      { s with sequencer := (s.sequencer.act (s.restLevel i) i a).act (s.restLevel i) i b } := by
    rw [applyCues_eq]
    simp [Sequencer.cued]
  have hrest (q : Sequencer) : ({ s with sequencer := q } : State).restLevel i = s.restLevel i := rfl
  simp [pulseReturns_lines_get, hpair, returnedLevel, hrest, Sequencer.act_pulse_get, Sequencer.act_lines_get]

/-- Settles O58: an action is one drive of its line, the returns take each line to its `returnedLevel`, and of two
cue points of one offset on a line the later one decides. -/
theorem cueActionsDriveLines : Obligations.CueActionsDriveLines := by
  refine ⟨fun q rest i a => ⟨q.act_moves rest i a, fun j hj => ?others, ?pulse, ?clear, ?active, ?toggle⟩,
    fun s i => ⟨fun hset => ?returns, fun hclear => ?stays, s.pulseReturns_pulse_get i⟩,
    fun s i j => ⟨?setHolds, ?pulseLater⟩⟩
  case others => simp [Sequencer.act_lines_get, Sequencer.act_pulse_get, hj]
  case pulse => simp [Sequencer.act_pulse_get]
  case clear =>
    rintro rfl
    simp [Sequencer.act_lines_get, CueAction.level]
  case active =>
    rintro (rfl | rfl) <;> simp [Sequencer.act_lines_get, CueAction.level, otherLevel_ne]
  case toggle =>
    rintro rfl
    simp [Sequencer.act_lines_get, CueAction.level, otherLevel_ne]
  case returns => simp [State.pulseReturns_lines_get, State.returnedLevel, hset]
  case stays => simp [State.pulseReturns_lines_get, State.returnedLevel, hclear]
  case setHolds =>
    have hset := s.applyCues_pair_pulseReturns i j .pulse .setActive
    exact hset.trans_ne (otherLevel_ne _)
  case pulseLater => exact s.applyCues_pair_pulseReturns i j .setActive .pulse

end Sys2Proof.Machine

/-! PROOFS. What a HOLD frame is composed from, and the value of each output position (R150 to R152, R154, R156). -/

namespace Sys2Proof.Machine

/-! ### What a frame is composed from (R149, R154) -/

theorem State.onAirJunction?_eq_some {s : State} {r : Junction} (ha : s.sequencer.onAir = some r.number)
    (hr : s.junction? r.number = some r) : s.onAirJunction? = some r := by
  simp [State.onAirJunction?, ha, hr]

theorem State.frameView_of_passThrough {s : State} (hc : s.compositor = .passThrough) : s.frameView = none := by
  simp [State.frameView, hc]

theorem State.frameView_of_hold {s : State} {r : Junction} (hc : s.compositor = .junction)
    (hp : s.sequencer.phase = .hold) (hr : s.onAirJunction? = some r) :
    s.frameView = some s.layouts.activeLayout.heldView := by
  simp [State.frameView, hc, hp, hr]

/-! ### The two source pictures, with fill code 0 for a missing one (R150, R156) -/

theorem programmePixel_eq_getD (picture : Option Picture) (col row : Nat) :
    programmePixel picture col row = (picture.map (fun p => p col row)).getD (fillPixel 0) := by
  cases picture <;> rfl

theorem State.promoPixel_eq_getD (s : State) (col row : Nat) :
    s.promoPixel col row = (s.shownSlot?.map (fun t => t.pixel col row)).getD (fillPixel 0) := by
  unfold State.promoPixel
  cases s.shownSlot? <;> rfl

/-! ### Windows and the under value (R152) -/

theorem Window.covers_iff {w : Window} {u v : Nat} :
    w.covers u v = true ↔ w.x ≤ u ∧ u < w.x + w.width ∧ w.y ≤ v ∧ v < w.y + w.height := by
  simp [Window.covers, and_assoc]

theorem FrameView.under_of_covers {w : FrameView} {u v : Nat} (h : w.credits.covers u v = true)
    (picture : Option Picture) :
    w.under picture u v = programmePixel picture (w.credits.sourceColumn u) (w.credits.sourceRow v) := if_pos h

theorem FrameView.under_of_not_covers {w : FrameView} {u v : Nat} (h : ¬ w.credits.covers u v = true)
    (picture : Option Picture) : w.under picture u v = fillPixel w.fill := if_neg h

/-! ### The blend (R152) -/

/-- At opacity 1 nothing of the under value is left. -/
theorem blend_opaque {n : Nat} (hn : 0 < n) (promo under : Nat) : blend n n promo under = promo := by
  rw [blend, Nat.sub_self, Nat.mul_zero, Nat.add_zero, Nat.mul_div_cancel _ hn]

theorem Pixel.blend_opaque {n : Nat} (hn : 0 < n) (promo under : Pixel) : Pixel.blend n n promo under = promo := by
  simp only [Pixel.blend, Machine.blend_opaque hn]

/-! ### The value of an output position (R151, R152) -/

theorem State.outputPixel_of_passThrough {s : State} (hc : s.compositor = .passThrough) (picture : Option Picture)
    (u v : Nat) : s.outputPixel picture u v = programmePixel picture u v := by
  simp [State.outputPixel, State.frameView_of_passThrough hc]

theorem State.outputPixel_outside_promo {s : State} {w : FrameView} {u v : Nat} (hw : s.frameView = some w)
    (hp : ¬ w.promo.covers u v = true) (picture : Option Picture) :
    s.outputPixel picture u v = w.under picture u v := by
  simp [State.outputPixel, hw, hp]

theorem State.outputPixel_inside_promo {s : State} {w : FrameView} {u v : Nat} (hw : s.frameView = some w)
    (hp : w.promo.covers u v = true) (picture : Option Picture) :
    s.outputPixel picture u v = Pixel.blend w.num w.den
      (s.promoPixel (w.promo.sourceColumn u) (w.promo.sourceRow v)) (w.under picture u v) := by
  simp [State.outputPixel, hw, hp]

/-- Settles O59: a HOLD frame has the held view of the active layout, the statement's under value is that of the view
on either side of the credits window's edge, and the promo window decides between it and the blend. -/
theorem holdFrameShowsLayout : Obligations.HoldFrameShowsLayout := by
  refine ⟨fun s r hc hp ha hr => ?hold, fun s picture u v => ⟨fun hc => ?passThrough, fun w under hw hunder => ?_⟩⟩
  case hold =>
    exact ⟨_, State.frameView_of_hold hc hp (State.onAirJunction?_eq_some ha hr), rfl, rfl, rfl, Nat.one_pos⟩
  case passThrough =>
    rw [State.outputPixel_of_passThrough hc, programmePixel_eq_getD]
  have hview : w.under picture u v = under := by
    obtain ⟨hin, rfl⟩ | ⟨hout, rfl⟩ := hunder
    · rw [FrameView.under_of_covers (Window.covers_iff.2 hin), programmePixel_eq_getD]
      rfl
    · exact FrameView.under_of_not_covers (mt Window.covers_iff.1 hout) picture
  subst hview
  simp only [← Window.covers_iff]
  refine ⟨fun hout => State.outputPixel_outside_promo hw hout picture, fun hin => ?blended,
    fun hin hone hpos => ?promoAlone⟩
  case blended =>
    rw [State.outputPixel_inside_promo hw hin, State.promoPixel_eq_getD]
    rfl
  case promoAlone =>
    rw [State.outputPixel_inside_promo hw hin, hone, Pixel.blend_opaque hpos, State.promoPixel_eq_getD]
    rfl

end Sys2Proof.Machine

/-! PROOFS. What a raise and a post do to the alarms and the event queue (R185, R186, R189), and the order frames that
reach READ_EVENTS and CLEAR_ALARM. -/

namespace Sys2Proof.Machine

/-! ### The alarms, one by one -/

theorem Alarms.get_set (a : Alarms) (n m : AlarmName) (x : Alarm) :
    (a.set n x).get m = if m = n then x else a.get m := by
  cases n <;> cases m <;> rfl

@[simp] theorem Alarms.get_set_same (a : Alarms) (n : AlarmName) (x : Alarm) : (a.set n x).get n = x := by
  rw [Alarms.get_set, if_pos rfl]

theorem Alarms.get_set_other {n m : AlarmName} (a : Alarms) (x : Alarm) (h : m ≠ n) :
    (a.set n x).get m = a.get m := by
  rw [Alarms.get_set, if_neg h]

/-- After reset every flag is clear, every count 0 and every last detail absent (R188, R194). -/
theorem Reporting.reset_get (n : AlarmName) : Reporting.reset.alarms.get n = Alarm.reset := by
  cases n <;> rfl

/-! ### Raising (R189) -/

@[simp] theorem Reporting.raise_get_same (r : Reporting) (n : AlarmName) (d : BitVec 24) :
    (r.raise n d).alarms.get n = (r.alarms.get n).raise d := Alarms.get_set_same _ _ _

theorem Reporting.raise_get_other {n m : AlarmName} (r : Reporting) (d : BitVec 24) (h : m ≠ n) :
    (r.raise n d).alarms.get m = r.alarms.get m := Alarms.get_set_other _ _ h

/-- Repeated raises of one alarm count modulo 256. -/
theorem Reporting.raise_iterate_count (r : Reporting) (n : AlarmName) (d : BitVec 24) (k : Nat) :
    (((fun q => Reporting.raise q n d)^[k] r).alarms.get n).count =
      (r.alarms.get n).count + BitVec.ofNat 8 k := by
  induction k with
  | zero => simp
  | succ k ih =>
    rw [Function.iterate_succ_apply', Reporting.raise_get_same]
    simp [Alarm.raise, ih, BitVec.ofNat_add, BitVec.add_assoc]

/-! ### Posting (R185, R186) -/

theorem Reporting.post_room {r : Reporting} (h : r.events.length < eventCapacity) (hf : Frame) (k : EventKind)
    (j : Option JunctionNumber) (c v : BitVec 24) :
    r.post hf k j c v = { r with
      events := r.events ++
        [{ seq := r.nextSeq, hf := hf, kind := k, junction := j, code := c, value := v }]
      nextSeq := r.nextSeq + 1 } := if_pos h

theorem Reporting.post_full {r : Reporting} (h : r.events.length = eventCapacity) (hf : Frame) (k : EventKind)
    (j : Option JunctionNumber) (c v : BitVec 24) :
    r.post hf k j c v = r.raise .eventOverflow (detailOf k.code) := if_neg (by omega)

/-- An alarm raised at a full queue: its ALARM event is dropped (R186). -/
theorem State.raiseAlarm_full {s : State} (h : s.reporting.events.length = eventCapacity) (n : AlarmName)
    (d : BitVec 24) (j : Option JunctionNumber) :
    (s.raiseAlarm n d j).reporting =
      (s.reporting.raise n d).raise .eventOverflow (detailOf EventKind.alarm.code) :=
  Reporting.post_full (r := s.reporting.raise n d) h _ _ _ _ _

/-! ### Order frames that are taken (R177, R178) -/

/-- An order frame reaches the order's own rules, or only the exchange changes. -/
theorem State.takeOrder_cases (s : State) (k : Byte) (p : List Byte) (crc : Half) (fits : Bool)
    (run : State → Answer) :
    (s.exchange = .reading ∧ crc = orderCrc k p ∧ fits = true ∧ s.takeOrder k p crc fits run = (run s).sent) ∨
      s.takeOrder k p crc fits run = { s with exchange := (s.takeOrder k p crc fits run).exchange } := by
  unfold State.takeOrder
  split
  case isFalse => exact .inr rfl
  case isTrue hread =>
    split
    case isTrue => exact .inr rfl
    case isFalse hcrc =>
      split
      case isTrue hfits => exact .inl ⟨hread, not_ne_iff.1 hcrc, hfits, rfl⟩
      case isFalse => exact .inr rfl

theorem State.takeOrder_taken {s : State} {k : Byte} {p : List Byte} {crc : Half} {fits : Bool}
    (hread : s.exchange = .reading) (hcrc : crc = orderCrc k p) (hfits : fits = true) (run : State → Answer) :
    s.takeOrder k p crc fits run = (run s).sent := by
  simp [State.takeOrder, hread, hcrc, hfits]

theorem exec_readEvents {s : State} {p : List Byte} {crc : Half} (h : s.Takes .readEvents p crc) :
    exec (.readEvents p crc) s = .next (s.readEvents (num1 p 0)).sent :=
  congrArg Host.Outcome.next (State.takeOrder_taken h.reading h.check (beq_iff_eq.2 h.fits) _)

theorem exec_clearAlarm {s : State} {p : List Byte} {crc : Half} (h : s.Takes .clearAlarm p crc) :
    exec (.clearAlarm p crc) s = .next (s.clearAlarm (num1 p 0) (byte1 (num1 p 1))).sent :=
  congrArg Host.Outcome.next (State.takeOrder_taken h.reading h.check (beq_iff_eq.2 h.fits) _)

@[simp] theorem State.refuse_sent (s : State) (st : Status) : (s.refuse st).sent = s.replied st [] := rfl

end Sys2Proof.Machine

/-! PROOFS. The event queue: reading the oldest events, and posting at a full queue (R186, R187). -/

namespace Sys2Proof.Machine

theorem State.readEvents_outside {s : State} {n : Nat} (h : n < 1 ∨ 8 < n) :
    s.readEvents n = s.refuse .refusedRange := if_neg (by omega)

theorem State.readEvents_inside {s : State} {n : Nat} (h1 : 1 ≤ n) (h8 : n ≤ 8) :
    s.readEvents n = ({ s with reporting := { s.reporting with events := s.reporting.events.drop n } }).accept
      (byte1 (s.reporting.events.take n).length :: (s.reporting.events.take n).flatMap Event.encode) :=
  if_pos ⟨h1, h8⟩

/-- Settles O42: the queue splits into the events that the reply carries and those that stay. -/
theorem readEventsOrder : Obligations.ReadEventsOrder := by
  intro s p crc htakes
  refine ⟨fun hout => ?refused, fun h1 h8 => ⟨List.length_take, ?_⟩⟩
  case refused => rw [exec_readEvents htakes, State.readEvents_outside hout, State.refuse_sent]
  rw [exec_readEvents htakes, State.readEvents_inside h1 h8]
  exact ⟨_, rfl, rfl, (List.take_append_drop _ _).symm, fun k j c v => State.post_posted _ k j c v⟩

/-- Settles O44: at a full queue a post is a raise of EVENT_OVERFLOW and nothing else. -/
theorem eventDroppedAtFullQueue : Obligations.EventDroppedAtFullQueue := by
  intro s hfull
  refine ⟨fun k j c v => ?dropped, fun n d j hn => ?_⟩
  case dropped =>
    rw [State.post, State.postAt, Reporting.post_full hfull]
    rfl
  dsimp only
  rw [State.raiseAlarm_full hfull]
  refine ⟨?frame, rfl, rfl, ?raised, ?overflow⟩
  case frame =>
    rw [← State.raiseAlarm_full hfull n d j]
    rfl
  case raised =>
    rw [Reporting.raise_get_other _ _ hn, Reporting.raise_get_same]
    rfl
  case overflow =>
    have hkept := Reporting.raise_get_other s.reporting d hn.symm
    have hget := Reporting.raise_get_same (s.reporting.raise n d) .eventOverflow (detailOf EventKind.alarm.code)
    rw [hkept] at hget
    exact hget

end Sys2Proof.Machine

/-! PROOFS. The reset state on the order port and in the reporting items (R194). -/

namespace Sys2Proof.Machine

/-- Settles O3: what follows RESET is the reset state but for the pins and the queue, and its empty event queue has
room for event 0. -/
theorem resetRestoresEveryBlock : Obligations.ResetRestoresEveryBlock := by
  intro s
  refine ⟨_, rfl, rfl, rfl, rfl, rfl, rfl, rfl, fun n => ?alarms, fun k j c v => ?first, rfl⟩
  case alarms =>
    change (Reporting.reset.alarms.get n).flag = false ∧ (Reporting.reset.alarms.get n).count = 0 ∧
      (Reporting.reset.alarms.get n).detail = none
    rw [Reporting.reset_get]
    exact ⟨rfl, rfl, rfl⟩
  case first =>
    have hroom : Reporting.reset.events.length < eventCapacity := by decide
    exact congrArg (fun r => r.events.map (·.seq)) (Reporting.post_room hroom _ k j c v)

end Sys2Proof.Machine

/-! PROOFS. What each command can do to the reporting items: it posts events and raises alarms, or it is RESET,
READ_EVENTS or CLEAR_ALARM (R187, R191, R194). -/

namespace Sys2Proof.Machine

/-! ### The words of the store link act on the part -/

theorem Acts.wordInRun (s : State) : Acts s s.wordInRun := by
  unfold State.wordInRun
  split
  · exact Acts.refl s
  · exact Acts.endBrokenRun s

theorem Acts.retryReply (s : State) : Acts s s.retryReply := by
  unfold State.retryReply
  split
  · exact Acts.endOrphan s
  · exact Acts.countRetry s _

theorem Acts.resend (s : State) : Acts s s.resend := by
  unfold State.resend
  split
  · exact Acts.engine s _
  · exact Acts.refl s

theorem Acts.removeRequest (s : State) : Acts s s.removeRequest := (Acts.freeSlots s _).trans (Acts.engine _ _)

theorem Acts.switchStore (s : State) (r : Junction) (a : Promo) : Acts s (s.switchStore r a) :=
  (Acts.removeRequest s).trans ((Acts.updateState _ r.number (fun x => { x with promo := .alternate })
    (fun _ => rfl) (fun _ => rfl)).trans ((Acts.freeSlots _ _).trans ((Acts.engine _ _).trans
      ((Acts.updateClaim _ _ _ _).trans ((Acts.post _ _ _ _ _).trans (Acts.beginFrame _))))))

theorem Acts.refusedOnAir (s : State) (n : JunctionNumber) (i : Nat) : Acts s (s.refusedOnAir n i) :=
  (Acts.removeRequest s).trans ((Acts.engine _ _).trans ((Acts.limitNeeded _ _ _).trans (Acts.requestRelease _ _)))

theorem Acts.refusedPrimed (s : State) (r : Junction) : Acts s (s.refusedPrimed r) := by
  unfold State.refusedPrimed
  split
  · exact Acts.switchStore s r _
  · exact (Acts.removeRequest s).trans (Acts.endRecord _ _ _)

theorem Acts.abortFor (s : State) (q : Request) : Acts s (s.abortFor q) := by
  unfold State.abortFor
  split
  · exact Acts.endOrphan s
  · next r _ =>
    cases r.state with
    | primed => exact Acts.refusedPrimed s r
    | squeezeIn | hold | release => exact Acts.refusedOnAir s _ _
    | planned | opened | locked => exact Acts.endOrphan s

theorem Acts.abortReply (s : State) : Acts s s.abortReply := by
  unfold State.abortReply
  split
  · split
    · exact Acts.endOrphan s
    · exact Acts.abortFor s _
  · exact Acts.refl s

theorem Acts.haltFetch (s : State) : Acts s s.haltFetch := by
  unfold State.haltFetch
  split
  · dsimp only
    split
    · exact (Acts.engine s _).trans ((Acts.freeSlots _ _).trans (Acts.raiseForJunction _ _ _))
    · exact (Acts.engine s _).trans (Acts.raiseForJunction _ _ _)
  · exact Acts.refl s

theorem Acts.resume (s : State) : Acts s s.resume := by
  unfold State.resume
  refine (Acts.engine s { s.engine with retry := 0 }).trans ?_
  dsimp only
  split
  · exact Acts.engineIdle _
  · split
    · exact Acts.damage _ _
    · exact Acts.reissue _

/-! ### Commands that only post events and raise alarms -/

theorem Reports.of_eq {r r' : Reporting} (h : r' = r) : Reports r r' := h ▸ Reports.refl r

/-- Whatever state the outcome leads to, its reporting items come from those of `s` by events and raises alone. -/
def ReportsTo (s : State) (out : Host.Outcome State Fault Refusal) : Prop :=
  ∀ t, out = .next t → Reports s.reporting t.reporting

theorem ReportsTo.next {s t : State} (h : Reports s.reporting t.reporting) : ReportsTo s (.next t) := by
  rintro _ ⟨⟩
  exact h

theorem ReportsTo.same {s t : State} (h : t.reporting = s.reporting) : ReportsTo s (.next t) :=
  .next (.of_eq h)

/-- A boundary issued once the timing unit has moved on. -/
theorem ReportsTo.boundary (s : State) (q : Timing) (b : Boundary) (o : BoundaryOrder) :
    ReportsTo s (.next (({ s with timing := q } : State).issueBoundary b o)) :=
  .next (Works.issueBoundary { s with timing := q } b o).reports

theorem ReportsTo.runPulse (s : State) (m : Moment) (o : BoundaryOrder) : ReportsTo s (.next (s.runPulse m o)) := by
  unfold State.runPulse
  dsimp only
  split
  · split
    · exact .boundary s _ _ _
    · exact .boundary s _ _ _
  · exact .same rfl

theorem ReportsTo.referencePulse (s : State) (m : Moment) (o : BoundaryOrder) :
    ReportsTo s (execReferencePulse m o s) := by
  unfold execReferencePulse
  split
  · split
    · exact .boundary s _ _ _
    · exact .same rfl
  · exact .same rfl
  · exact ReportsTo.runPulse s m o
  · exact ReportsTo.runPulse s m o

theorem ReportsTo.referenceWindowClose (s : State) (o : BoundaryOrder) :
    ReportsTo s (execReferenceWindowClose o s) := by
  unfold execReferenceWindowClose
  split
  · split
    · exact .boundary s _ _ _
    · exact .boundary s _ _ _
  · exact .same rfl
  · split <;> exact .same rfl

theorem ReportsTo.freeRunExpiry (s : State) (o : BoundaryOrder) : ReportsTo s (execFreeRunExpiry o s) := by
  unfold execFreeRunExpiry
  split
  · exact .boundary s _ _ _
  · exact .same rfl

theorem ReportsTo.slotEnd (s : State) (heard : SlotHeard) : ReportsTo s (execSlotEnd heard s) := by
  unfold execSlotEnd
  split
  · split
    · exact .next (Works.slotEnded s _ _ _).reports
    · exact .same rfl
  · exact .same rfl

theorem ReportsTo.cycleClose (s : State) : ReportsTo s (execCycleClose s) := by
  unfold execCycleClose
  split
  · split
    · exact .next (Works.close s _ _).reports
    · exact .same rfl
  · exact .same rfl

theorem ReportsTo.ownSlotStart (s : State) : ReportsTo s (execOwnSlotStart s) := by
  unfold execOwnSlotStart
  split <;> exact .same rfl

theorem ReportsTo.lineEdgeSettled (s : State) (i : Fin 4) (l : Level) :
    ReportsTo s (execLineEdgeSettled i l s) := by
  unfold execLineEdgeSettled
  split
  · exact .same rfl
  · exact .next (Acts.lineEdge { s with markerPins := s.markerPins.set i l } i l).reports

theorem ReportsTo.markerPacket (s : State) (code check : Half) : ReportsTo s (execMarkerPacket code check s) := by
  unfold execMarkerPacket
  split
  · split <;> exact .same rfl
  · exact .same rfl

theorem ReportsTo.storeBlock (s : State) (i : Nat) (header parity : LinkWord) (p : List LinkWord) :
    ReportsTo s (execStoreBlock i header p parity s) := by
  unfold execStoreBlock
  cases s.engine.state with
  | requesting | receiving => exact .next (Acts.receiveBlock s _ _ _).reports
  | idle | backoff | halted => exact .same rfl

theorem ReportsTo.storeEnd (s : State) : ReportsTo s (execStoreEnd s) := by
  unfold execStoreEnd
  cases s.engine.state with
  | requesting => exact .next (Acts.endBrokenRun s).reports
  | receiving =>
    dsimp only
    split
    · exact .next (Acts.endBrokenRun s).reports
    · exact .next (Acts.endKeptRun s).reports
  | idle | backoff | halted => exact .same rfl

theorem ReportsTo.storeDisconnect (s : State) : ReportsTo s (execStoreDisconnect s) := by
  unfold execStoreDisconnect
  cases s.engine.state with
  | requesting => exact .next (Acts.endBrokenRun s).reports
  | receiving =>
    dsimp only
    split
    · exact .next (Acts.endBrokenRun s).reports
    · exact .next (Acts.endKeptRun s).reports
  | idle | backoff | halted => exact .same rfl

theorem ReportsTo.storeRetry (s : State) : ReportsTo s (execStoreRetry s) := by
  unfold execStoreRetry
  cases s.engine.state with
  | requesting => exact .next (Acts.retryReply s).reports
  | receiving => exact .next (Acts.wordInRun s).reports
  | idle | backoff | halted => exact .same rfl

theorem ReportsTo.storeAbort (s : State) : ReportsTo s (execStoreAbort s) := by
  unfold execStoreAbort
  cases s.engine.state with
  | requesting => exact .next (Acts.abortReply s).reports
  | receiving => exact .next (Acts.wordInRun s).reports
  | idle | backoff | halted => exact .same rfl

theorem ReportsTo.backoffExpiry (s : State) : ReportsTo s (execBackoffExpiry s) := by
  unfold execBackoffExpiry
  cases s.engine.state with
  | backoff =>
    dsimp only
    split
    · exact .next (Acts.reissue s).reports
    · exact .next (Acts.resend s).reports
  | idle | requesting | receiving | halted => exact .same rfl

theorem ReportsTo.noAnswerLimit (s : State) : ReportsTo s (execNoAnswerLimit s) := by
  unfold execNoAnswerLimit
  cases s.engine.state with
  | requesting | receiving => exact .next (Acts.haltFetch s).reports
  | idle | backoff | halted => exact .same rfl

theorem ReportsTo.oselAsserted (s : State) : ReportsTo s (execOselAsserted s) := by
  unfold execOselAsserted
  split <;> exact .same rfl

/-! ### Orders whose own rules only post events and raise alarms -/

theorem ReportsTo.takeOrder {s : State} {run : State → Answer} (h : Reports s.reporting (run s).state.reporting)
    (k : Byte) (p : List Byte) (crc : Half) (fits : Bool) : ReportsTo s (.next (s.takeOrder k p crc fits run)) := by
  obtain ⟨-, -, -, htaken⟩ | hframe := s.takeOrder_cases k p crc fits run
  · rw [htaken]
    exact .next h
  · rw [hframe]
    exact .same rfl

theorem ReportsTo.takeOrder_same {s : State} {run : State → Answer} (h : (run s).state.reporting = s.reporting)
    (k : Byte) (p : List Byte) (crc : Half) (fits : Bool) : ReportsTo s (.next (s.takeOrder k p crc fits run)) :=
  ReportsTo.takeOrder (.of_eq h) k p crc fits

theorem State.configure_reporting (s : State) (p : List Byte) : (s.configure p).state.reporting = s.reporting := by
  unfold State.configure
  split
  · rfl
  · split <;> rfl

theorem State.plan_reporting (s : State) (p : List Byte) : (s.plan p).state.reporting = s.reporting := by
  unfold State.plan
  dsimp only
  repeat' split
  all_goals rfl

theorem State.amendPending_reporting (s : State) (r : Junction) (f : FieldSet) (p : PromoInUse) :
    (s.amendPending r f p).state.reporting = s.reporting := by
  unfold State.amendPending
  dsimp only
  split
  · rfl
  · split <;> rfl

theorem State.amendLocked_reports (s : State) (r : Junction) (f : FieldSet) (p : PromoInUse) :
    Reports s.reporting (s.amendLocked r f p).state.reporting := by
  unfold State.amendLocked
  dsimp only
  split
  · exact (Acts.lapse (s.amendRecord r f p) _ _).reports
  · exact Reports.refl _

theorem State.amendPath_reports (s : State) (r : Junction) (f : FieldSet) :
    Reports s.reporting (s.amendPath r f).state.reporting := by
  unfold State.amendPath
  cases r.state with
  | locked =>
    dsimp only
    split
    · exact s.amendLocked_reports _ _ _
    · rw [State.amendPending_reporting]
      exact Reports.refl _
  | opened =>
    dsimp only
    split <;> exact Reports.refl _
  | planned | primed | squeezeIn | hold | release => exact Reports.refl _

theorem State.amend_reports (s : State) (p : List Byte) : Reports s.reporting (s.amend p).state.reporting := by
  unfold State.amend
  dsimp only
  split
  · exact Reports.refl _
  · split
    · exact Reports.refl _
    · split
      · exact Reports.refl _
      · split
        · exact Reports.refl _
        · split
          · exact Reports.refl _
          · exact s.amendPath_reports _ _

theorem State.cancel_reports (s : State) (n : JunctionNumber) :
    Reports s.reporting (s.cancel n).state.reporting := by
  unfold State.cancel
  split
  · exact Reports.refl _
  · split
    · exact (Acts.requestRelease s _).reports
    · exact (Acts.endRecord s _ _).reports

theorem State.layoutOrder_reporting (s : State) (p : List Byte) :
    (s.layoutOrder p).state.reporting = s.reporting := by
  unfold State.layoutOrder
  dsimp only
  split
  · rfl
  · split <;> rfl

theorem State.resumeOrder_reports (s : State) : Reports s.reporting s.resumeOrder.state.reporting := by
  unfold State.resumeOrder
  split
  · exact (Acts.resume s).reports
  · exact Reports.refl _

theorem State.queryJunction_reporting (s : State) (n : JunctionNumber) :
    (s.queryJunction n).state.reporting = s.reporting := by
  unfold State.queryJunction
  split <;> rfl

theorem State.queryMirror_reporting (s : State) (choice : Nat) :
    (s.queryMirror choice).state.reporting = s.reporting := by
  unfold State.queryMirror
  split
  · rfl
  · split <;> rfl

/-! ### CLEAR_ALARM's own rules (R191) -/

theorem num1_lt (p : List Byte) (i : Nat) : num1 p i < 256 := (p.getD i 0).isLt

theorem eq_byte1_num1_iff (b : Byte) (p : List Byte) (i : Nat) : b = byte1 (num1 p i) ↔ num1 p i = b.toNat := by
  rw [byte1, ← BitVec.toNat_inj, BitVec.toNat_ofNat, Nat.mod_eq_of_lt (num1_lt p i)]
  exact eq_comm

theorem State.clearAlarm_unknown {a : Nat} (s : State) (c : Byte) (h : AlarmName.ofCode a = none) :
    s.clearAlarm a c = s.refuse .refusedRange := by
  simp [State.clearAlarm, h]

/-- The count that equals the alarm's clears its flag alone. -/
theorem State.clearAlarm_matching {s : State} {a : Nat} {c : Byte} {n : AlarmName}
    (h : AlarmName.ofCode a = some n) (hc : (s.reporting.alarms.get n).count = c) :
    s.clearAlarm a c = ({ s with reporting := { s.reporting with
      alarms := s.reporting.alarms.set n (s.reporting.alarms.get n).clear } }).accept [] := by
  simp [State.clearAlarm, h, hc]

/-- Any other count is stale. -/
theorem State.clearAlarm_stale {s : State} {a : Nat} {c : Byte} {n : AlarmName}
    (h : AlarmName.ofCode a = some n) (hc : (s.reporting.alarms.get n).count ≠ c) :
    (s.clearAlarm a c).sent = s.replied .refusedStale [(s.reporting.alarms.get n).count] := by
  simp [State.clearAlarm, h, hc, Answer.sent, State.replied]

/-! ### All commands -/

/-- The ways in which a command can change the reporting items of `s`. -/
inductive State.ReportingMoves (s : State) : Instr → Reporting → Prop where
  | reports {c : Instr} {r : Reporting} (h : Reports s.reporting r) : s.ReportingMoves c r
  | reset : s.ReportingMoves .reset Reporting.reset
  | eventsRead {p : List Byte} {crc : Half} (n : Nat) (h : s.Takes .readEvents p crc) :
    s.ReportingMoves (.readEvents p crc) { s.reporting with events := s.reporting.events.drop n }
  | alarmCleared {p : List Byte} {crc : Half} {n : AlarmName} (h : s.Takes .clearAlarm p crc)
    (known : AlarmName.ofCode (num1 p 0) = some n)
    (matching : num1 p 1 = (s.reporting.alarms.get n).count.toNat) :
    s.ReportingMoves (.clearAlarm p crc)
      { s.reporting with alarms := s.reporting.alarms.set n (s.reporting.alarms.get n).clear }

theorem State.ReportingMoves.same {s : State} {c : Instr} {r : Reporting} (h : r = s.reporting) :
    s.ReportingMoves c r := .reports (.of_eq h)

theorem State.readEvents_moves (s : State) (p : List Byte) (crc : Half) :
    s.ReportingMoves (.readEvents p crc) (s.takeOrder OrderKind.readEvents.code p crc (p.length == 1)
      (fun s => s.readEvents (num1 p 0))).reporting := by
  obtain ⟨hread, hcrc, hfits, htaken⟩ | hframe := s.takeOrder_cases OrderKind.readEvents.code p crc
    (p.length == 1) (fun s => s.readEvents (num1 p 0))
  · rw [htaken]
    by_cases hn : 1 ≤ num1 p 0 ∧ num1 p 0 ≤ 8
    · rw [State.readEvents_inside hn.1 hn.2]
      exact .eventsRead _ ⟨hread, hcrc, beq_iff_eq.1 hfits⟩
    · rw [State.readEvents_outside (by omega)]
      exact .same rfl
  · rw [hframe]
    exact .same rfl

theorem State.clearAlarm_moves (s : State) (p : List Byte) (crc : Half) :
    s.ReportingMoves (.clearAlarm p crc) (s.takeOrder OrderKind.clearAlarm.code p crc (p.length == 2)
      (fun s => s.clearAlarm (num1 p 0) (byte1 (num1 p 1)))).reporting := by
  obtain ⟨hread, hcrc, hfits, htaken⟩ | hframe := s.takeOrder_cases OrderKind.clearAlarm.code p crc
    (p.length == 2) (fun s => s.clearAlarm (num1 p 0) (byte1 (num1 p 1)))
  · rw [htaken]
    cases hn : AlarmName.ofCode (num1 p 0) with
    | none =>
      rw [State.clearAlarm_unknown s _ hn]
      exact .same rfl
    | some n =>
      by_cases hc : (s.reporting.alarms.get n).count = byte1 (num1 p 1)
      · rw [State.clearAlarm_matching hn hc]
        exact .alarmCleared ⟨hread, hcrc, beq_iff_eq.1 hfits⟩ hn ((eq_byte1_num1_iff _ _ _).1 hc)
      · rw [State.clearAlarm_stale hn hc]
        exact .same rfl
  · rw [hframe]
    exact .same rfl

/-- What a command does to the reporting items is one of these moves. -/
theorem exec_reportingMoves {c : Instr} {s t : State} (h : exec c s = .next t) :
    s.ReportingMoves c t.reporting := by
  cases c with
  | reset => cases h; exact .reset
  | readEvents p crc => cases h; exact s.readEvents_moves p crc
  | clearAlarm p crc => cases h; exact s.clearAlarm_moves p crc
  | referencePulse m o => exact .reports (ReportsTo.referencePulse s m o t h)
  | referenceWindowClose o => exact .reports (ReportsTo.referenceWindowClose s o t h)
  | freeRunExpiry o => exact .reports (ReportsTo.freeRunExpiry s o t h)
  | countWord w => cases h; exact .same rfl
  | slotEnd heard => exact .reports (ReportsTo.slotEnd s heard t h)
  | cycleClose => exact .reports (ReportsTo.cycleClose s t h)
  | ownSlotStart => exact .reports (ReportsTo.ownSlotStart s t h)
  | lineEdgeSettled i l => exact .reports (ReportsTo.lineEdgeSettled s i l t h)
  | markerPacket code check => exact .reports (ReportsTo.markerPacket s code check t h)
  | storeBlock i header p parity => exact .reports (ReportsTo.storeBlock s i header parity p t h)
  | storeEnd => exact .reports (ReportsTo.storeEnd s t h)
  | storeDisconnect => exact .reports (ReportsTo.storeDisconnect s t h)
  | storeRetry => exact .reports (ReportsTo.storeRetry s t h)
  | storeAbort => exact .reports (ReportsTo.storeAbort s t h)
  | backoffExpiry => exact .reports (ReportsTo.backoffExpiry s t h)
  | noAnswerLimit => exact .reports (ReportsTo.noAnswerLimit s t h)
  | oselAsserted => exact .reports (ReportsTo.oselAsserted s t h)
  | oselDeasserted => cases h; exact .same rfl
  | configure p crc => exact .reports (ReportsTo.takeOrder_same (s.configure_reporting p) _ _ _ _ t h)
  | plan p crc => exact .reports (ReportsTo.takeOrder_same (s.plan_reporting p) _ _ _ _ t h)
  | amend p crc => exact .reports (ReportsTo.takeOrder (s.amend_reports p) _ _ _ _ t h)
  | cancel p crc => exact .reports (ReportsTo.takeOrder (s.cancel_reports _) _ _ _ _ t h)
  | withdrawAll p crc =>
    exact .reports (ReportsTo.takeOrder (run := State.withdrawAll) (Acts.endRecords s _ _).reports _ _ _ _ t h)
  | layout p crc => exact .reports (ReportsTo.takeOrder_same (s.layoutOrder_reporting p) _ _ _ _ t h)
  | resumeFetch p crc => exact .reports (ReportsTo.takeOrder s.resumeOrder_reports _ _ _ _ t h)
  | queryStatus p crc =>
    exact .reports (ReportsTo.takeOrder_same (run := fun s => s.accept s.statusReport) rfl _ _ _ _ t h)
  | queryJunction p crc => exact .reports (ReportsTo.takeOrder_same (s.queryJunction_reporting _) _ _ _ _ t h)
  | queryMirror p crc => exact .reports (ReportsTo.takeOrder_same (s.queryMirror_reporting _) _ _ _ _ t h)
  | unknownOrderKind k p crc =>
    exact .reports (ReportsTo.takeOrder_same (run := fun s => s.refuse .refusedFormat) rfl _ _ _ _ t h)

end Sys2Proof.Machine

/-! PROOFS. The alarm flags: what sets them, and what clears them (R189, R191). -/

namespace Sys2Proof.Machine

/-- Every flag that is set in `r` is set in `r'`. -/
def Reporting.KeepsFlags (r r' : Reporting) : Prop :=
  ∀ n, (r.alarms.get n).flag = true → (r'.alarms.get n).flag = true

theorem Reporting.raise_keepsFlags (r : Reporting) (n : AlarmName) (d : BitVec 24) : r.KeepsFlags (r.raise n d) := by
  intro m hm
  by_cases hmn : m = n
  · rw [hmn, Reporting.raise_get_same]
    rfl
  · rwa [Reporting.raise_get_other r d hmn]

theorem Reporting.post_keepsFlags (r : Reporting) (hf : Frame) (k : EventKind) (j : Option JunctionNumber)
    (c v : BitVec 24) : r.KeepsFlags (r.post hf k j c v) := by
  unfold Reporting.post
  split
  · exact fun _ hm => hm
  · exact r.raise_keepsFlags _ _

theorem Reports.keepsFlags {r r' : Reporting} (h : Reports r r') : r.KeepsFlags r' := by
  induction h with
  | refl => exact fun _ hm => hm
  | @post r' _ hf k j c v ih => exact fun m hm => r'.post_keepsFlags hf k j c v m (ih m hm)
  | @raise r' _ n d ih => exact fun m hm => r'.raise_keepsFlags n d m (ih m hm)

/-- Only RESET, or a CLEAR_ALARM for this alarm with its count, clears a flag. -/
theorem State.ReportingMoves.flag_cleared {s : State} {c : Instr} {r : Reporting} {n : AlarmName}
    (h : s.ReportingMoves c r) (hset : (s.reporting.alarms.get n).flag = true)
    (hclear : (r.alarms.get n).flag = false) :
    c = .reset ∨ ∃ p crc, c = .clearAlarm p crc ∧ s.Takes .clearAlarm p crc ∧
      AlarmName.ofCode (num1 p 0) = some n ∧ num1 p 1 = (s.reporting.alarms.get n).count.toNat := by
  cases h with
  | reset => exact .inl rfl
  | reports h => exact absurd hclear (by simp [h.keepsFlags n hset])
  | eventsRead => exact absurd hclear (by simp [hset])
  | @alarmCleared p crc m htakes known matching =>
    have hnm : n = m := by
      by_contra hne
      rw [Alarms.get_set_other _ _ hne, hset] at hclear
      cases hclear
    subst hnm
    exact .inr ⟨p, crc, rfl, htakes, known, matching⟩

theorem State.Takes.withReporting {s : State} {k : OrderKind} {p : List Byte} {crc : Half} (h : s.Takes k p crc)
    (r : Reporting) : ({ s with reporting := r } : State).Takes k p crc := ⟨h.reading, h.check, h.fits⟩

theorem Alarm.count_raise_ne (a : Alarm) (d : BitVec 24) : (a.raise d).count ≠ a.count := by
  simp [Alarm.raise]

/-- Settles O46: CLEAR_ALARM by the cases of its own rules, a step by the ways in which a command can change the
reporting items. -/
theorem alarmClearedOnlyByItsCount : Obligations.AlarmClearedOnlyByItsCount := by
  refine ⟨fun s p crc htakes => ⟨fun hnone => ?unknown, fun n hn => ?_⟩,
    fun c s t n hexec => (exec_reportingMoves hexec).flag_cleared⟩
  case unknown => rw [exec_clearAlarm htakes, State.clearAlarm_unknown s _ hnone, State.refuse_sent]
  dsimp only
  simp only [← eq_byte1_num1_iff, ne_eq]
  refine ⟨fun hcount => ?cleared, fun hcount => ?stale, fun hcount d => ?raised, fun d => ?around⟩
  case cleared =>
    rw [exec_clearAlarm htakes, State.clearAlarm_matching hn hcount]
    refine ⟨_, rfl, rfl, Alarms.get_set_same _ _ _, fun m hm => Alarms.get_set_other _ _ hm, fun d => ?_⟩
    rw [Reporting.raise_get_same]
    rfl
  case stale => rw [exec_clearAlarm htakes, State.clearAlarm_stale hn hcount]
  case raised =>
    have hraised := s.reporting.raise_get_same n d
    rw [exec_clearAlarm (htakes.withReporting _), State.clearAlarm_stale hn, hraised]
    · rfl
    · rw [hraised, ← hcount]
      exact Alarm.count_raise_ne _ _
  case around => rw [Reporting.raise_iterate_count]; simp

end Sys2Proof.Machine

/-! PROOFS. Frame boundaries as the blocks see them: what a boundary keeps, its TIME_JUMP event, and the operations
in their order (R7). -/

namespace Sys2Proof.Machine

/-! ### What working on the state keeps -/

theorem Works.sameAround {s t : State} (h : Works s t) : s.SameAround t := ⟨h.config, h.exchange, h.pins, h.pending⟩

theorem Works.hf {s t : State} (h : Works s t) : t.hf = s.hf := by rw [State.hf, State.hf, h.timing]

theorem Works.lead {s t : State} (h : Works s t) : t.lead = s.lead := by rw [State.lead, State.lead, h.config]

/-! ### Events stay in the queue -/

theorem Reporting.post_events_prefix (r : Reporting) (hf : Frame) (k : EventKind) (j : Option JunctionNumber)
    (c v : BitVec 24) : r.events <+: (r.post hf k j c v).events := by
  unfold Reporting.post
  split
  · exact List.prefix_append _ _
  · exact List.prefix_rfl

/-- Posting and raising take no event from the queue (R185). -/
theorem Reports.events_prefix {r r' : Reporting} (h : Reports r r') : r.events <+: r'.events := by
  induction h with
  | refl => exact List.prefix_rfl
  | post _ hf k j c v ih => exact ih.trans (Reporting.post_events_prefix _ hf k j c v)
  | raise _ n d ih => exact ih

/-! ### The boundary (R7) -/

theorem Works.postJump (s : State) (j : Option (Frame × Frame)) : Works s (s.postJump j) := by
  unfold State.postJump
  split
  · exact (Acts.postAt s _ _ _ _ _).toWorks
  · exact Works.refl s

/-- TIME_JUMP is posted before any block acts, and no block takes an event back (R7). -/
theorem State.issueBoundary_jumpPosted {s : State} {b : Boundary} {old new : Frame} (o : BoundaryOrder)
    (hb : b.jump = some (old, new)) : s.JumpPosted (s.issueBoundary b o) old new := by
  intro hroom
  have hposted := congrArg Reporting.events (Reporting.post_room hroom new .timeJump none old new)
  dsimp only at hposted
  rw [← hposted, State.issueBoundary, hb]
  exact (Works.boundaryOps (s.postAt new .timeJump none old new) b o.storeFirst
    (schedule o)).reports.events_prefix

/-- A boundary issued from `s` once its timing unit stands at `q`. -/
theorem State.issueBoundary_from (s : State) (q : Timing) (b : Boundary) (o : BoundaryOrder) :
    s.SameAround (({ s with timing := q } : State).issueBoundary b o) ∧
      (({ s with timing := q } : State).issueBoundary b o).timing = q :=
  have h := Works.issueBoundary { s with timing := q } b o
  ⟨⟨h.config, h.exchange, h.pins, h.pending⟩, h.timing⟩

theorem State.issueBoundary_from_jumpPosted {s : State} {q : Timing} {b : Boundary} {old new : Frame}
    (o : BoundaryOrder) (hb : b.jump = some (old, new)) :
    s.JumpPosted (({ s with timing := q } : State).issueBoundary b o) old new :=
  State.issueBoundary_jumpPosted (s := { s with timing := q }) o hb

theorem boundaryOp_mem_all (op : BoundaryOp) : op ∈ allBoundaryOps := by cases op <;> decide

theorem nodup_allBoundaryOps : allBoundaryOps.Nodup := by decide

/-- Erasing repetitions keeps the elements, each once, in a list of any length. -/
theorem eraseDups_spec {α : Type} [DecidableEq α] (k : Nat) (l : List α) (hk : l.length ≤ k) :
    l.eraseDups.Nodup ∧ ∀ a, a ∈ l.eraseDups ↔ a ∈ l := by
  induction k generalizing l with
  | zero => simp [List.length_eq_zero_iff.1 (Nat.le_zero.1 hk)]
  | succ k ih =>
    cases l with
    | nil => simp
    | cons x l =>
      have hshort : (l.filter fun b => !b == x).length ≤ k :=
        (List.length_filter_le _ _).trans (Nat.le_of_succ_le_succ hk)
      obtain ⟨hnodup, hmem⟩ := ih _ hshort
      rw [List.eraseDups_cons]
      refine ⟨List.nodup_cons.2 ⟨by simp [hmem], hnodup⟩, fun a => ?_⟩
      by_cases ha : a = x
      · simp [ha]
      · simp [ha, hmem]

theorem eraseDups_of_nodup {α : Type} [DecidableEq α] {l : List α} (h : l.Nodup) : l.eraseDups = l := by
  induction l with
  | nil => rfl
  | cons x l ih =>
    obtain ⟨hx, hl⟩ := List.nodup_cons.1 h
    rw [List.eraseDups_cons, List.filter_eq_self.2, ih hl]
    intro b hb
    simpa using fun hbx : b = x => hx (hbx ▸ hb)

theorem nodup_schedule (o : BoundaryOrder) : (schedule o).Nodup := (eraseDups_spec _ _ le_rfl).1

/-- Every operation stands in the schedule once. -/
theorem schedule_perm (o : BoundaryOrder) : (schedule o).Perm allBoundaryOps := by
  refine (List.perm_ext_iff_of_nodup (nodup_schedule o) nodup_allBoundaryOps).2 fun op => ?_
  simp [schedule, (eraseDups_spec _ _ le_rfl).2, boundaryOp_mem_all op]

/-- The operations that a command names, each once, stand first (log 4). -/
theorem schedule_prefix {o : BoundaryOrder} (h : o.ops.Nodup) : o.ops <+: schedule o := by
  rw [schedule, List.eraseDups_append, eraseDups_of_nodup h]
  exact List.prefix_append _ _

end Sys2Proof.Machine

/-! PROOFS. The Reference Timing Unit's commands: pulses, window closes and free-run expiries (R4 to R13). -/

namespace Sys2Proof.Machine

/-! ### Windows and the pulse run (R4) -/

theorem windowPlace_eq_inside_iff {p start m : Nat} : windowPlace p start m = .inside ↔ InWindow p start m := by
  unfold windowPlace InWindow
  split
  · simp; omega
  · split <;> simp <;> omega

theorem periodInRange_iff {d : Nat} : periodInRange d = true ↔ 16000000 ≤ d ∧ d ≤ 42000000 := by
  simp [periodInRange]

theorem Timing.judgePulse_first {t : Timing} (m : Moment) (h : t.pulseRun = 0) : t.judgePulse m = t.openRun m := if_pos h

theorem Timing.judgePulse_second {t : Timing} (m : Moment) (h : t.pulseRun ≠ 0) (hp : t.runPeriod = none) :
    t.judgePulse m = t.secondPulse m := by
  simp [Timing.judgePulse, h, hp]

theorem Timing.judgePulse_inside {t : Timing} {m p : Nat} (h : t.pulseRun ≠ 0) (hp : t.runPeriod = some p)
    (hw : InWindow p t.lastPulse m) : t.judgePulse m = t.goodPulse m := by
  simp [Timing.judgePulse, h, hp, windowPlace_eq_inside_iff, hw]

theorem Timing.judgePulse_outside {t : Timing} {m p : Nat} (h : t.pulseRun ≠ 0) (hp : t.runPeriod = some p)
    (hw : ¬ InWindow p t.lastPulse m) : t.judgePulse m = t.openRun m := by
  simp [Timing.judgePulse, h, hp, windowPlace_eq_inside_iff, hw]

theorem Timing.lockDue_iff {t : Timing} :
    t.lockDue = true ↔ t.pulseRun = 4 ∧ t.trackRun = 3 ∧ t.trackFresh = true := by
  simp [Timing.lockDue, Timing.countReady]

/-- A judged pulse moves the run alone. -/
theorem Timing.judgePulse_frame (t : Timing) (m : Moment) : t.judgePulse m = { t with
    pulseRun := (t.judgePulse m).pulseRun, runPeriod := (t.judgePulse m).runPeriod
    lastPulse := (t.judgePulse m).lastPulse } := by
  unfold Timing.judgePulse
  split
  · rfl
  · split
    · unfold Timing.secondPulse
      split <;> rfl
    · split <;> rfl

/-- The pulse of `LocksAt` completes the run. -/
theorem Timing.LocksAt.judgePulse {t : Timing} {m p : Nat} {v : Frame} (h : t.LocksAt m p v) :
    t.judgePulse m = { t with pulseRun := 4, lastPulse := m } := by
  have hrun := h.run
  rw [Timing.judgePulse_inside (by omega) h.period h.window, Timing.goodPulse, Nat.min_eq_right (by omega)]

theorem Timing.LocksAt.lockDue {t : Timing} {m p : Nat} {v : Frame} (h : t.LocksAt m p v) :
    (t.judgePulse m).lockDue = true := by
  rw [h.judgePulse, Timing.lockDue_iff]
  exact ⟨rfl, h.adopted, h.fresh⟩

/-! ### Pulses outside LOCKED -/

theorem exec_referencePulse_run {s : State} (m : Moment) (o : BoundaryOrder) (h : s.timing.refState ≠ .locked) :
    exec (.referencePulse m o) s = .next (s.runPulse m o) := by
  have hdispatch : exec (.referencePulse m o) s = execReferencePulse m o s := rfl
  rw [hdispatch, execReferencePulse]
  cases hs : s.timing.refState with
  | locked => exact absurd hs h
  | seeking => rfl
  | holdover => rfl

/-- A pulse that completes no lock clears the fresh flag and issues no boundary (R4, R5). -/
theorem State.runPulse_judged {s : State} {m : Moment} (o : BoundaryOrder) (h : (s.timing.judgePulse m).lockDue = false) :
    s.runPulse m o = { s with timing := { s.timing.judgePulse m with trackFresh := false } } := by
  simp [State.runPulse, h]

/-- The pulse that completes a lock: a lock in SEEKING, a relock in HOLDOVER (R6, R13). -/
theorem State.runPulse_locks {s : State} {m p : Nat} {v : Frame} (o : BoundaryOrder) (h : s.timing.LocksAt m p v) :
    s.runPulse m o = if s.timing.refState = .holdover
      then ({ s with timing := s.timing.judgePulse m } : State).relock m v o
      else ({ s with timing := s.timing.judgePulse m } : State).lock m v o := by
  have hlast : (s.timing.judgePulse m).trackLast = some v := by rw [h.judgePulse]; exact h.last
  have hstate : (s.timing.judgePulse m).refState = s.timing.refState := by rw [h.judgePulse]
  simp only [State.runPulse, h.lockDue, hlast, hstate]

/-- The unit after a lock or relock: LOCKED at the count track's last value, with the run period as its period. -/
theorem Timing.LocksAt.lockAt {t : Timing} {m p : Nat} {v : Frame} (h : t.LocksAt m p v) :
    (t.judgePulse m).lockAt m v = { t with
      refState := .locked, hf := v, hfValid := true, period := some p, pulseRun := 0, runPeriod := none
      lastPulse := m, missing := 0, trackFresh := false, jumpRun := 0, jumpLast := none
      pendingAdoption := none, freeRun := none, basis := m } := by
  rw [h.judgePulse, Timing.lockAt]
  simp only [h.period]

theorem jumpTo_eq (t : Timing) (new : Frame) : t.jumpTo new = jumpBetween t.hf new := rfl

theorem jumpBetween_of_ne {hf new : Frame} (h : new ≠ hf + 1) : jumpBetween hf new = some (hf + 1, new) := if_neg h

/-- The boundary of a lock. -/
theorem State.runPulse_lock {s : State} {m p : Nat} {v : Frame} (o : BoundaryOrder) (h : s.timing.LocksAt m p v)
    (hs : s.timing.refState ≠ .holdover) : s.runPulse m o =
      ({ s with timing := (s.timing.judgePulse m).lockAt m v } : State).issueBoundary
        { ended := s.timing.hf, origin := .pulse, jump := none, relock := false, loss := false } o := by
  rw [State.runPulse_locks o h, if_neg hs, State.lock, h.judgePulse]

/-- The boundary of a relock. -/
theorem State.runPulse_relock {s : State} {m p : Nat} {v : Frame} (o : BoundaryOrder) (h : s.timing.LocksAt m p v)
    (hs : s.timing.refState = .holdover) : s.runPulse m o =
      ({ s with timing := (s.timing.judgePulse m).lockAt m v } : State).issueBoundary
        { ended := s.timing.hf, origin := .pulse, jump := jumpBetween s.timing.hf v, relock := true, loss := false }
        o := by
  rw [State.runPulse_locks o h, if_pos hs, State.relock, jumpTo_eq, h.judgePulse]

/-! ### Pulses and window closes of LOCKED (R8, R9, R11) -/

theorem exec_referencePulse_locked {s : State} {p : Nat} (m : Moment) (o : BoundaryOrder)
    (h : s.timing.refState = .locked) (hp : s.timing.period = some p) :
    exec (.referencePulse m o) s =
      if windowPlace p s.timing.basis m = .inside then .next (s.lockedPulse m o) else .next s := by
  have hdispatch : exec (.referencePulse m o) s = execReferencePulse m o s := rfl
  rw [hdispatch, execReferencePulse, h, hp]

theorem exec_referencePulse_inside {s : State} {m p : Nat} (o : BoundaryOrder) (h : s.timing.refState = .locked)
    (hp : s.timing.period = some p) (hw : InWindow p s.timing.basis m) :
    exec (.referencePulse m o) s = .next (s.lockedPulse m o) := by
  rw [exec_referencePulse_locked m o h hp, if_pos (windowPlace_eq_inside_iff.2 hw)]

theorem exec_referencePulse_outside {s : State} {m p : Nat} (o : BoundaryOrder) (h : s.timing.refState = .locked)
    (hp : s.timing.period = some p) (hw : ¬ InWindow p s.timing.basis m) :
    exec (.referencePulse m o) s = .next s := by
  rw [exec_referencePulse_locked m o h hp, if_neg (mt windowPlace_eq_inside_iff.1 hw)]

theorem exec_windowClose_locked {s : State} {p : Nat} (o : BoundaryOrder) (h : s.timing.refState = .locked)
    (hp : s.timing.period = some p) : exec (.referenceWindowClose o) s =
      if s.timing.missing = 0 then .next (s.substitute p o) else .next (s.loseReference p o) := by
  have hdispatch : exec (.referenceWindowClose o) s = execReferenceWindowClose o s := rfl
  rw [hdispatch, execReferenceWindowClose, h, hp]

theorem exec_windowClose_run {s : State} (o : BoundaryOrder) (h : s.timing.refState ≠ .locked) :
    exec (.referenceWindowClose o) s =
      if 2 ≤ s.timing.pulseRun then .next { s with timing := s.timing.breakRun } else .next s := by
  have hdispatch : exec (.referenceWindowClose o) s = execReferenceWindowClose o s := rfl
  rw [hdispatch, execReferenceWindowClose]
  cases hs : s.timing.refState with
  | locked => exact absurd hs h
  | seeking => rfl
  | holdover => rfl

theorem exec_freeRunExpiry {s : State} {due p : Nat} (o : BoundaryOrder) (h : s.timing.refState = .holdover)
    (hd : s.timing.freeRun = some due) (hp : s.timing.period = some p) :
    exec (.freeRunExpiry o) s = .next (s.freeRunBoundary due p o) := by
  have hdispatch : exec (.freeRunExpiry o) s = execFreeRunExpiry o s := rfl
  rw [hdispatch, execFreeRunExpiry, h, hd, hp]

/-- A pending adoption other than HF + 1 is the time jump of the next boundary of LOCKED (R11). -/
theorem Timing.lockedBoundary_jump {t : Timing} {v : Frame} (origin : Origin) (loss : Bool)
    (hv : t.pendingAdoption = some v) (hne : v ≠ t.hf + 1) :
    (t.lockedBoundary origin loss).jump = some (t.hf + 1, v) := by
  have hnext : t.nextHf = v := by simp [Timing.nextHf, hv]
  rw [Timing.lockedBoundary, jumpTo_eq, hnext, jumpBetween_of_ne hne]

/-! ### The statements -/

/-- Settles O7: outside LOCKED a count word goes to the track alone, and only the free-run timer issues a boundary. -/
theorem eventsOutsideLocked : Obligations.EventsOutsideLocked := by
  refine ⟨fun s w hl => ?word, fun s o hl => ⟨fun h2 => ?closes, fun h2 => ?noWindow⟩, fun s o due p hs hd hp => ?expiry⟩
  case word =>
    exact ⟨s.timing.track w, by rw [exec_countWord, Timing.word, if_neg hl], s.timing.track_trackTook w,
      s.timing.track_frame w⟩
  case closes => rw [exec_windowClose_run o hl, if_pos h2]; rfl
  case noWindow => rw [exec_windowClose_run o hl, if_neg (by omega)]
  case expiry =>
    obtain ⟨haround, htiming⟩ := s.issueBoundary_from
      { s.timing with hf := s.timing.hf + 1, basis := due, freeRun := some (due + p) }
      { ended := s.timing.hf, origin := .freeRun, jump := none, relock := false, loss := false } o
    exact ⟨_, exec_freeRunExpiry o hs hd hp, haround, htiming⟩

/-- The outcome of a pulse outside LOCKED whose judgement is known and completes no lock. -/
theorem exec_referencePulse_judged {s : State} {m : Moment} {q : Timing} (o : BoundaryOrder)
    (hl : s.timing.refState ≠ .locked) (hq : s.timing.judgePulse m = q) (hd : q.lockDue = false) :
    exec (.referencePulse m o) s = .next { s with timing := { q with trackFresh := false } } := by
  rw [exec_referencePulse_run m o hl, State.runPulse_judged o (by rw [hq, hd]), hq]

theorem Timing.lockDue_of_pulseRun_ne {t : Timing} (h : t.pulseRun ≠ 4) : t.lockDue = false :=
  Bool.eq_false_iff.2 fun hd => h (Timing.lockDue_iff.1 hd).1

/-- Settles O8: one case for each way in which a pulse can be judged in the run. -/
theorem pulseJudgedInRun : Obligations.PulseJudgedInRun := by
  intro s m o hl
  dsimp only
  have hopened : (s.timing.openRun m).lockDue = false := Timing.lockDue_of_pulseRun_ne (by simp [Timing.openRun])
  refine ⟨fun h0 => ?first, fun h1 hp => ⟨fun hr => ?measured, fun hr => ?tooFar⟩,
    fun p h2 hp => ⟨fun hw => ?outside, fun hw hnot => ?inside⟩⟩
  case first => exact exec_referencePulse_judged o hl (Timing.judgePulse_first m h0) hopened
  case measured =>
    refine exec_referencePulse_judged (q := { s.timing with
      pulseRun := 2, runPeriod := some (m - s.timing.lastPulse), lastPulse := m }) o hl ?_
      (Timing.lockDue_of_pulseRun_ne (by simp))
    rw [Timing.judgePulse_second m (by omega) hp, Timing.secondPulse, if_pos (periodInRange_iff.2 hr)]
  case tooFar =>
    refine exec_referencePulse_judged o hl ?_ hopened
    rw [Timing.judgePulse_second m (by omega) hp, Timing.secondPulse, if_neg (mt periodInRange_iff.1 hr)]
  case outside => exact exec_referencePulse_judged o hl (Timing.judgePulse_outside (by omega) hp hw) hopened
  case inside =>
    refine exec_referencePulse_judged o hl (Timing.judgePulse_inside (by omega) hp hw) (Bool.eq_false_iff.2 fun hd => ?_)
    obtain ⟨hrun, htrack, hfresh⟩ := Timing.lockDue_iff.1 hd
    simp only [Timing.goodPulse] at hrun htrack hfresh
    rcases hnot with h | h | h
    · omega
    · exact h htrack
    · simp [h] at hfresh

/-- Settles O9: the pulse completes the run with a fresh adopted count, so the unit locks or relocks. -/
theorem pulseLocksAndRelocks : Obligations.PulseLocksAndRelocks := by
  intro s m o p v hl hrun hp hw htrack hfresh hlast
  have h : s.timing.LocksAt m p v := ⟨hrun, hp, hw, htrack, hfresh, hlast⟩
  rw [exec_referencePulse_run m o hl, ← h.lockAt]
  by_cases hs : s.timing.refState = .holdover
  · rw [State.runPulse_relock o h hs]
    obtain ⟨haround, htiming⟩ := s.issueBoundary_from ((s.timing.judgePulse m).lockAt m v) _ o
    exact ⟨_, rfl, haround, htiming,
      fun _ hne => State.issueBoundary_from_jumpPosted o (jumpBetween_of_ne hne)⟩
  · rw [State.runPulse_lock o h hs]
    obtain ⟨haround, htiming⟩ := s.issueBoundary_from ((s.timing.judgePulse m).lockAt m v) _ o
    exact ⟨_, rfl, haround, htiming, fun hh => absurd hh hs⟩

/-- Settles O10: inside its window a pulse issues a boundary of LOCKED, outside it is a stray. -/
theorem pulseInLocked : Obligations.PulseInLocked := by
  intro s m o p hl hp
  refine ⟨fun hw => exec_referencePulse_outside o hl hp hw, fun hw => ?_⟩
  obtain ⟨haround, htiming⟩ := s.issueBoundary_from
    { s.timing.advanceHf with basis := m, missing := 0, trackFresh := false } (s.timing.lockedBoundary .pulse false) o
  exact ⟨_, exec_referencePulse_inside o hl hp hw, haround, htiming, fun v hv hne =>
    State.issueBoundary_from_jumpPosted o (Timing.lockedBoundary_jump .pulse false hv hne)⟩

/-! ### REFERENCE_LOST (R9) -/

/-- A flag that an operation raises stays set through the operations that follow it at the boundary. -/
theorem State.boundaryOps_referenceLost {b : Boundary} (hb : b.loss = true) (first : Bool) (s : State)
    {ops : List BoundaryOp} (h : BoundaryOp.referenceLost ∈ ops) :
    ((s.boundaryOps b first ops).reporting.alarms.get .referenceLost).flag = true := by
  induction ops generalizing s with
  | nil => simp at h
  | cons op ops ih =>
    rw [State.boundaryOps]
    by_cases hop : op = .referenceLost
    · have hset : ((s.boundaryOp b (startContext first ops) op).reporting.alarms.get .referenceLost).flag = true := by
        rw [hop, State.boundaryOp, if_pos hb]
        refine Reporting.post_keepsFlags (s.reporting.raise .referenceLost 0) _ _ _ _ _ _ ?_
        rw [Reporting.raise_get_same]
        rfl
      exact (Works.boundaryOps _ b first ops).reports.keepsFlags _ hset
    · exact ih _ ((List.mem_cons.1 h).resolve_left (Ne.symm hop))

theorem State.issueBoundary_referenceLost {b : Boundary} (hb : b.loss = true) (s : State) (o : BoundaryOrder) :
    ((s.issueBoundary b o).reporting.alarms.get .referenceLost).flag = true :=
  State.boundaryOps_referenceLost hb _ _ ((schedule_perm o).mem_iff.2 (boundaryOp_mem_all _))

/-- Settles O11: the first window without a pulse is substituted, the second in a row loses the reference. -/
theorem windowCloseInLocked : Obligations.WindowCloseInLocked := by
  intro s o p hl hp
  dsimp only
  by_cases hm : s.timing.missing = 0
  · obtain ⟨haround, htiming⟩ := s.issueBoundary_from
      { s.timing.advanceHf with basis := s.timing.basis + p, missing := 1, trackFresh := false }
      (s.timing.lockedBoundary .substitute false) o
    exact ⟨_, by rw [exec_windowClose_locked o hl hp, if_pos hm]; rfl, haround, fun _ => htiming,
      fun h => absurd hm h, fun h => absurd hm h, fun v hv hne =>
      State.issueBoundary_from_jumpPosted o (Timing.lockedBoundary_jump .substitute false hv hne)⟩
  · obtain ⟨haround, htiming⟩ := s.issueBoundary_from
      { s.timing.advanceHf with
        refState := .holdover, basis := s.timing.basis + p, freeRun := some (s.timing.basis + p + p), missing := 0
        jumpRun := 0, jumpLast := none, pulseRun := 0, runPeriod := none }
      (s.timing.lockedBoundary .freeRun true) o
    exact ⟨_, by rw [exec_windowClose_locked o hl hp, if_neg hm]; rfl, haround, fun h => absurd h hm,
      fun _ => htiming, fun _ => State.issueBoundary_referenceLost rfl _ o, fun v hv hne =>
      State.issueBoundary_from_jumpPosted o (Timing.lockedBoundary_jump .freeRun true hv hne)⟩

end Sys2Proof.Machine

/-! PROOFS. The queue of commands, intervals in common, and the event queue's numbering (R2, R185, R189). -/

namespace Sys2Proof.Machine

/-! ### The queue of commands (log 1) -/

theorem step_of_cons {s : State} {c : Instr} {rest : List Instr} (h : s.pending = c :: rest) :
    step s = exec c { s with pending := rest } := by
  simp [step, h]

theorem step_of_nil {s : State} (h : s.pending = []) : step s = .next s := by simp [step, h]

/-- Settles O1: `step` is defined by the queue's two forms. -/
theorem stepTakesFrontCommand : Obligations.StepTakesFrontCommand :=
  ⟨fun _ _ _ h => step_of_cons h, fun _ h => step_of_nil h⟩

/-- What every command keeps of a state, whatever waits, every step keeps. -/
theorem step_keeps {P : State → Prop} (hpending : ∀ s rest, P s → P { s with pending := rest })
    (hexec : ∀ c s t, P s → exec c s = .next t → P t) {s t : State} (hs : P s) (h : step s = .next t) : P t := by
  cases hp : s.pending with
  | nil =>
    rw [step_of_nil hp] at h
    cases h
    exact hs
  | cons c rest =>
    rw [step_of_cons hp] at h
    exact hexec c _ t (hpending s rest hs) h

/-! ### Intervals (R2) -/

/-- Settles O23: of two intervals with a frame in common, one starts in the other. -/
theorem intersectingIntervalsShareAFrame : Obligations.IntersectingIntervalsShareAFrame :=
  fun _ _ _ _ => intersects_iff_exists_holds

/-! ### Raising an alarm with room in the queue (R189, R190) -/

theorem State.raiseAlarm_room {s : State} (h : s.reporting.events.length < eventCapacity) (n : AlarmName)
    (d : BitVec 24) (j : Option JunctionNumber) :
    (s.raiseAlarm n d j).reporting = { s.reporting.raise n d with
      events := s.reporting.events ++
        [{ seq := s.reporting.nextSeq, hf := s.hf, kind := .alarm, junction := j,
           code := detailBytes n.code ((s.reporting.alarms.get n).count + 1) 0, value := d }]
      nextSeq := s.reporting.nextSeq + 1 } := by
  have hcount : ((s.reporting.raise n d).alarms.get n).count = (s.reporting.alarms.get n).count + 1 := by
    rw [Reporting.raise_get_same]
    rfl
  rw [← hcount]
  exact Reporting.post_room (r := s.reporting.raise n d) h _ _ _ _ _

/-- The alarm that is raised stands in the alarms, whether its event found room or not (R189). -/
theorem State.raiseAlarm_get {n : AlarmName} (s : State) (d : BitVec 24) (j : Option JunctionNumber)
    (hn : n ≠ .eventOverflow) :
    (s.raiseAlarm n d j).reporting.alarms.get n = (s.reporting.alarms.get n).raise d := by
  by_cases h : s.reporting.events.length < eventCapacity
  · rw [State.raiseAlarm_room h]
    exact Reporting.raise_get_same _ _ _
  · have hpost : (s.raiseAlarm n d j).reporting = (s.reporting.raise n d).raise .eventOverflow _ := if_neg h
    rw [hpost, Reporting.raise_get_other _ _ hn, Reporting.raise_get_same]

/-- Settles O45: the raise changes one alarm, and its event finds room. -/
theorem alarmRaised : Obligations.AlarmRaised := by
  intro s n d j hn hroom
  have h := State.raiseAlarm_room hroom n d j
  refine ⟨rfl, s.raiseAlarm_get d j hn, fun m hm => ?others, fun _ => ?event, ?attn⟩
  case others =>
    rw [h]
    exact Reporting.raise_get_other _ _ hm
  case event =>
    rw [h]
  case attn =>
    rw [State.attn, h]
    simp

/-! ### The queue's form (R185) -/

theorem Reporting.Sound.post {r : Reporting} (h : r.Sound) (hf : Frame) (k : EventKind) (j : Option JunctionNumber)
    (c v : BitVec 24) : (r.post hf k j c v).Sound := by
  by_cases hroom : r.events.length < eventCapacity
  · rw [Reporting.post_room hroom]
    refine ⟨?room, fun i e hi => ?ascend⟩
    case room =>
      simp only [List.length_append, List.length_singleton]
      exact hroom
    case ascend =>
      simp only [List.length_append, List.length_singleton] at hi ⊢
      rcases Nat.lt_or_ge i r.events.length with hlt | hge
      · rw [List.getElem?_append_left hlt] at hi
        rw [h.ascend i e hi, Nat.sub_add_comm hlt.le, BitVec.ofNat_add]
        grind
      · rw [List.getElem?_append_right hge] at hi
        obtain ⟨hi0, rfl⟩ : i - r.events.length = 0 ∧ _ = e := by simpa using List.getElem?_eq_some_iff.1 hi
        have hone : r.events.length + 1 - i = 1 := by omega
        simp [hone]
  · have hpost : r.post hf k j c v = r.raise .eventOverflow (detailOf k.code) := if_neg hroom
    rw [hpost]
    exact ⟨h.room, h.ascend⟩

theorem Reports.sound {r r' : Reporting} (h : Reports r r') (hr : r.Sound) : r'.Sound := by
  induction h with
  | refl => exact hr
  | post _ hf k j c v ih => exact ih.post hf k j c v
  | raise _ n d ih => exact ⟨ih.room, ih.ascend⟩

/-- The newest events keep their numbers when the oldest leave (R187). -/
theorem Reporting.Sound.drop {r : Reporting} (h : r.Sound) (n : Nat) :
    ({ r with events := r.events.drop n } : Reporting).Sound := by
  refine ⟨?room, fun i e hi => ?ascend⟩
  case room =>
    have := h.room
    simp only [List.length_drop]
    omega
  case ascend =>
    dsimp only at hi ⊢
    rw [List.getElem?_drop] at hi
    rw [h.ascend _ e hi, List.length_drop, Nat.sub_sub]

theorem Reporting.reset_sound : Reporting.reset.Sound := ⟨by decide, fun i e hi => by simp [Reporting.reset] at hi⟩

/-- Settles O43: by the ways in which a command can move the reporting items. -/
theorem eventQueueSoundKept : Obligations.EventQueueSoundKept := by
  intro s t hs h
  refine step_keeps (P := fun s => s.reporting.Sound) (fun _ _ h => h) (fun c s t hs h => ?_) hs h
  have hmoves := exec_reportingMoves h
  generalize t.reporting = r at hmoves ⊢
  cases hmoves with
  | reports h => exact h.sound hs
  | reset => exact Reporting.reset_sound
  | eventsRead n _ => exact hs.drop n
  | alarmCleared => exact ⟨hs.room, hs.ascend⟩

end Sys2Proof.Machine

/-! PROOFS. Ramped windows on the way between the full grid and a layout (R153, R155, R157). -/

namespace Sys2Proof.Machine

/-! ### The floor formula -/

theorem interpolate_cast (full target n d : Nat) (h : n ≤ d) :
    (interpolate full target n d : Int) = ((full : Int) * d + ((target : Int) - full) * n) / d := by
  have hnum : 0 ≤ (full : Int) * d + ((target : Int) - full) * n := by nlinarith
  rw [interpolate, Int.toNat_of_nonneg (Int.ediv_nonneg (by push_cast; exact hnum) (by positivity))]
  push_cast
  rfl

/-- Between a target and a full value no less than it, the way stays at or above the target. -/
theorem le_interpolate {full target n d : Nat} (hn : n ≤ d) (hd : 0 < d) (h : target ≤ full) :
    target ≤ interpolate full target n d := by
  have hcast := interpolate_cast full target n d hn
  have : (target : Int) ≤ ((full : Int) * d + ((target : Int) - full) * n) / d := by
    rw [Int.le_ediv_iff_mul_le (by exact_mod_cast hd)]
    nlinarith
  omega

/-- From 0 the way stays at or below the target. -/
theorem interpolate_zero_le {target n d : Nat} (hn : n ≤ d) (hd : 0 < d) : interpolate 0 target n d ≤ target := by
  have hcast := interpolate_cast 0 target n d hn
  have : (((0 : Nat) : Int) * d + ((target : Int) - (0 : Nat)) * n) / d ≤ target := by
    refine Int.ediv_le_of_le_mul (by exact_mod_cast hd) ?_
    push_cast
    nlinarith
  omega

/-- A place on its way from 0 and a size on its way from the full one never reach past the full size together. -/
theorem interpolate_add_le {full place size n d : Nat} (hn : n ≤ d) (hd : 0 < d) (h : place + size ≤ full) :
    interpolate 0 place n d + interpolate full size n d ≤ full := by
  have hplace := interpolate_cast 0 place n d hn
  have hsize := interpolate_cast full size n d hn
  have hpos : (0 : Int) < d := by exact_mod_cast hd
  have h1 := Int.ediv_mul_le (((0 : Nat) : Int) * d + ((place : Int) - (0 : Nat)) * n) hpos.ne'
  have h2 := Int.ediv_mul_le ((full : Int) * d + ((size : Int) - full) * n) hpos.ne'
  rw [← hplace] at h1
  rw [← hsize] at h2
  have hfit : ((place : Int) + size - full) * n ≤ 0 := by
    have : (place : Int) + size - full ≤ 0 := by omega
    nlinarith
  have : ((interpolate 0 place n d : Int) + interpolate full size n d) * d ≤ full * d := by
    push_cast at h1 h2
    linarith
  have := le_of_mul_le_mul_right this hpos
  omega

theorem interpolate_full (full target : Nat) {d : Nat} (hd : 0 < d) : interpolate full target d d = target := by
  have hcast := interpolate_cast full target d d le_rfl
  have : ((full : Int) * d + ((target : Int) - full) * d) / d = target := by
    rw [← add_mul, add_sub_cancel, Int.mul_ediv_cancel _ (by omega)]
  omega

theorem Window.inGrid_iff {w : Window} : w.inGrid = true ↔ 64 ≤ w.width ∧ w.width ≤ 1920 ∧ 36 ≤ w.height ∧
    w.height ≤ 1080 ∧ w.x + w.width ≤ 1920 ∧ w.y + w.height ≤ 1080 := by
  simp [Window.inGrid, and_assoc]

/-! ### The frames of a ramp (R153, R155, R157) -/

theorem State.frameView_of_squeezeIn {s : State} {r : Junction} (hc : s.compositor = .junction)
    (hp : s.sequencer.phase = .squeezeIn) (hr : s.onAirJunction? = some r) :
    s.frameView = some (s.layouts.activeLayout.view s.sequencer.ramp r.fields.rin) := by
  simp [State.frameView, hc, hp, hr]

theorem State.frameView_of_release {s : State} {r : Junction} (hc : s.compositor = .junction)
    (hp : s.sequencer.phase = .release) (hr : s.onAirJunction? = some r) :
    s.frameView = some (s.layouts.activeLayout.view s.sequencer.releaseLeft r.fields.rout) := by
  simp [State.frameView, hc, hp, hr]

/-- Settles O60: each coordinate by the floor formula, and each phase by its view of the active layout. -/
theorem rampedWindowStaysInGrid : Obligations.RampedWindowStaysInGrid := by
  refine ⟨fun w n d hw hn hd => ?_, fun s r hc ha hr => ?_⟩
  · obtain ⟨-, hwidth, -, hheight, hx, hy⟩ := Window.inGrid_iff.1 hw
    refine ⟨interpolate_cast 0 w.x n d hn, interpolate_cast 0 w.y n d hn, interpolate_cast 1920 w.width n d hn,
      interpolate_cast 1080 w.height n d hn, interpolate_add_le hn hd hx, interpolate_add_le hn hd hy,
      le_interpolate hn hd hwidth, le_interpolate hn hd hheight, interpolate_zero_le hn hd,
      interpolate_zero_le hn hd, ?_⟩
    rintro rfl
    simp [Window.fromFull, interpolate_full _ _ hd]
  · have hon := State.onAirJunction?_eq_some ha hr
    exact ⟨fun hp => State.frameView_of_squeezeIn hc hp hon, fun hp => State.frameView_of_release hc hp hon⟩

end Sys2Proof.Machine

/-! PROOFS. The soundness of the Reference Timing Unit through each of its moves (Section 1.2; R4 to R13). -/

namespace Sys2Proof.Machine

/-- The ways in which a command can move the timing unit. -/
inductive Timing.Moves (t : Timing) : Timing → Prop where
  | word (w : CountWord) : t.Moves (t.word w)
  | judged (m : Moment) (h : t.refState ≠ .locked) : t.Moves { t.judgePulse m with trackFresh := false }
  | broken (h : t.refState ≠ .locked) : t.Moves t.breakRun
  | pulse (m : Moment) (h : t.refState = .locked) :
    t.Moves { t.advanceHf with basis := m, missing := 0, trackFresh := false }
  | substituted (m : Moment) (h : t.refState = .locked) :
    t.Moves { t.advanceHf with basis := m, missing := 1, trackFresh := false }
  | lost (m due : Moment) (h : t.refState = .locked) :
    t.Moves { t.advanceHf with
      refState := .holdover, basis := m, freeRun := some due, missing := 0, jumpRun := 0, jumpLast := none
      pulseRun := 0, runPeriod := none }
  | locks (m : Moment) (v : Frame) (hl : t.refState ≠ .locked) (h : (t.judgePulse m).lockDue = true) :
    t.Moves ((t.judgePulse m).lockAt m v)
  | freeRun (m due : Moment) (h : t.refState = .holdover) :
    t.Moves { t with hf := t.hf + 1, basis := m, freeRun := some due }

/-! ### The pulse run -/

theorem Timing.Sound.openRun {t : Timing} (h : t.Sound) (m : Moment) (hl : t.refState ≠ .locked) :
    (t.openRun m).Sound :=
  { h with
    pulseRun := by simp [Timing.openRun]
    runPeriod := by simp [Timing.openRun]
    measured := by simp [Timing.openRun]
    locked := fun hh => absurd hh hl }

theorem Timing.Sound.secondPulse {t : Timing} (h : t.Sound) (m : Moment) (hl : t.refState ≠ .locked) :
    (t.secondPulse m).Sound := by
  unfold Timing.secondPulse
  split
  · next hr =>
    exact { h with
      pulseRun := by simp
      runPeriod := by simpa using periodInRange_iff.1 hr
      measured := by simp
      locked := fun hh => absurd hh hl }
  · exact h.openRun m hl

/-- A good pulse comes only when a run period is held, so the run stays at 2 or more. -/
theorem Timing.Sound.goodPulse {t : Timing} (h : t.Sound) (m : Moment) (hl : t.refState ≠ .locked)
    (hp : t.runPeriod.isSome) : (t.goodPulse m).Sound :=
  have h2 := h.measured.1 hp
  { h with
    pulseRun := Nat.min_le_right _ _
    measured := ⟨fun _ => by simp [Timing.goodPulse]; omega, fun _ => hp⟩
    locked := fun hh => absurd hh hl }

theorem Timing.Sound.judgePulse {t : Timing} (h : t.Sound) (m : Moment) (hl : t.refState ≠ .locked) :
    (t.judgePulse m).Sound := by
  unfold Timing.judgePulse
  split
  · exact h.openRun m hl
  · split
    · exact h.secondPulse m hl
    · next p hp =>
      split
      · exact h.goodPulse m hl (by simp [hp])
      · exact h.openRun m hl

/-! ### Count words -/

theorem Timing.Sound.track {t : Timing} (h : t.Sound) (w : CountWord) : (t.track w).Sound := by
  cases w with
  | bad => exact { h with trackRun := by simp [Timing.track], tracked := by simp [Timing.track] }
  | good v =>
    refine { h with trackRun := ?_, tracked := ?_ }
    · simp only [Timing.track]
      split <;> omega
    · simp only [Timing.track, Option.isSome_some, true_iff]
      split <;> omega

theorem Timing.Sound.clearJump {t : Timing} (h : t.Sound) : t.clearJump.Sound :=
  { h with
    jumpRun := by simp [Timing.clearJump]
    jump := fun hl => ⟨rfl, rfl, (h.jump hl).2.2⟩ }

theorem Timing.Sound.feedJump {t : Timing} (h : t.Sound) (v : Frame) (hl : t.refState = .locked) :
    (t.feedJump v).Sound := by
  have hrun := h.jumpRun
  by_cases hc : Continues t.jumpLast v
  · by_cases h3 : t.jumpRun + 1 = 3
    · rw [Timing.feedJump_third hc h3]
      exact { h with jumpRun := by simp, jump := fun hh => absurd hl hh }
    · rw [Timing.feedJump_continuing hc h3]
      exact { h with jumpRun := by simp; omega, jump := fun hh => absurd hl hh }
  · rw [Timing.feedJump_new hc]
    exact { h with jumpRun := by simp, jump := fun hh => absurd hl hh }

theorem Timing.Sound.word {t : Timing} (h : t.Sound) (w : CountWord) : (t.word w).Sound := by
  unfold Timing.word
  split
  · next hl =>
    have hl' : (t.track w).refState = .locked := by rw [t.track_frame w]; exact hl
    cases w with
    | bad => exact (h.track .bad).clearJump
    | good v =>
      by_cases hv : v = (t.track (.good v)).hf + 1
      · rw [Timing.compareWord_agrees hv]
        exact (h.track _).clearJump
      · rw [Timing.compareWord_disagrees hv]
        exact (h.track _).feedJump v hl'
  · exact h.track w

/-! ### Boundaries, locks and losses -/

/-- HF counts on in LOCKED, with the pending adoption used up (R11). -/
theorem Timing.Sound.advanceHf {t : Timing} (h : t.Sound) (hl : t.refState = .locked) : t.advanceHf.Sound :=
  { h with
    before := fun hh => by simp [Timing.advanceHf, hl] at hh
    jump := fun hh => absurd hl hh }

theorem Timing.Sound.pulse {t : Timing} (h : t.Sound) (hl : t.refState = .locked) (m : Moment) {k : Nat} (hk : k ≤ 1) :
    ({ t with basis := m, missing := k, trackFresh := false } : Timing).Sound :=
  { h with missing := hk, jump := fun hh => absurd hl hh }

theorem Timing.Sound.lost {t : Timing} (h : t.Sound) (hl : t.refState = .locked) (hp : t.pendingAdoption = none)
    (m due : Moment) : ({ t with
      refState := .holdover, basis := m, freeRun := some due, missing := 0, jumpRun := 0, jumpLast := none
      pulseRun := 0, runPeriod := none } : Timing).Sound :=
  { h with
    pulseRun := by simp
    jumpRun := by simp
    missing := by simp
    runPeriod := by simp
    measured := by simp
    valid := by simpa [hl] using h.valid
    known := by simpa [hl] using h.known
    before := by simp
    locked := by simp
    jump := fun _ => ⟨rfl, hp, rfl⟩
    timer := by simp }

/-- A lock takes a run period that the run has measured. -/
theorem Timing.Sound.lockAt {t : Timing} (h : t.Sound) (hd : t.lockDue = true) (m : Moment) (v : Frame) :
    (t.lockAt m v).Sound :=
  have hrun := (Timing.lockDue_iff.1 hd).1
  { h with
    pulseRun := by simp [Timing.lockAt]
    jumpRun := by simp [Timing.lockAt]
    missing := by simp [Timing.lockAt]
    runPeriod := by simp [Timing.lockAt]
    period := h.runPeriod
    measured := by simp [Timing.lockAt]
    valid := by simp [Timing.lockAt]
    known := by simpa [Timing.lockAt] using h.measured.2 (by omega)
    before := by simp [Timing.lockAt]
    locked := fun _ => rfl
    jump := fun _ => ⟨rfl, rfl, rfl⟩
    timer := by simp [Timing.lockAt] }

theorem Timing.Sound.freeRunning {t : Timing} (h : t.Sound) (hs : t.refState = .holdover) (m due : Moment) :
    ({ t with hf := t.hf + 1, basis := m, freeRun := some due } : Timing).Sound :=
  { h with
    before := fun hh => by simp [hs] at hh
    timer := by simp [hs] }

theorem Timing.Moves.sound {t q : Timing} (h : t.Moves q) (hs : t.Sound) : q.Sound := by
  cases h with
  | word w => exact hs.word w
  | judged m hl => exact { hs.judgePulse m hl with }
  | broken hl =>
    exact { hs with
      pulseRun := by simp [Timing.breakRun]
      runPeriod := by simp [Timing.breakRun]
      measured := by simp [Timing.breakRun]
      locked := fun hh => absurd hh hl }
  | pulse m hl => exact (hs.advanceHf hl).pulse hl m (by omega)
  | substituted m hl => exact (hs.advanceHf hl).pulse hl m (by omega)
  | lost m due hl => exact (hs.advanceHf hl).lost hl rfl m due
  | locks m v hl hd => exact (hs.judgePulse m hl).lockAt hd m v
  | freeRun m due hh => exact hs.freeRunning hh m due

theorem Timing.reset_sound : Timing.reset.Sound where
  pulseRun := by decide
  trackRun := by decide
  jumpRun := by decide
  missing := by decide
  runPeriod := by simp [Timing.reset]
  period := by simp [Timing.reset]
  measured := by decide
  tracked := by decide
  valid := by decide
  known := by decide
  before := fun _ => rfl
  locked := fun _ => rfl
  jump := fun _ => ⟨rfl, rfl, rfl⟩
  timer := by decide

end Sys2Proof.Machine

/-! PROOFS. What each command can do to the whole part, and what that keeps of every state: the queue, the timing
unit, the Frame Ring and the Junction Table (Sections 1.2, 3.1 and 9.5). -/

namespace Sys2Proof.Machine

/-! ### The moves of a command -/

/-- `s` with the exchange on the order port and the levels of the marker pins replaced. -/
def State.outside (s : State) (e : Exchange) (pins : Four Level) : State :=
  { s with exchange := e, markerPins := pins }

/-- The ways in which a command can move the part. -/
inductive State.Moves (s : State) : State → Prop where
  /-- RESET. -/
  | reset : s.Moves { State.reset with markerPins := s.markerPins, pending := s.pending }
  /-- The blocks act, once the exchange and the pins have moved; the bus and the mirror stay. -/
  | acts {t : State} (e : Exchange) (pins : Four Level) (h : Acts (s.outside e pins) t) : s.Moves t
  /-- The timing unit moves and issues no boundary. -/
  | timed {q : Timing} (h : s.timing.Moves q) : s.Moves { s with timing := q }
  /-- The timing unit moves and issues a boundary. -/
  | boundary {q : Timing} (h : s.timing.Moves q) (b : Boundary) (o : BoundaryOrder) :
    s.Moves (({ s with timing := q } : State).issueBoundary b o)
  /-- A slot of the open cycle ends. -/
  | slot {c : Configuration} {cy : Cycle} (hc : s.config = some c) (hcy : s.bus.cycle = some cy)
    (hlt : cy.nextSlot < c.slots) (heard : SlotHeard) : s.Moves (s.slotEnded c.station cy heard)
  /-- The open cycle closes. -/
  | close {c : Configuration} {cy : Cycle} (hc : s.config = some c) (hcy : s.bus.cycle = some cy)
    (hlast : cy.nextSlot = c.slots) : s.Moves (s.close c cy.hf)
  /-- The own slot begins and is driven. -/
  | driven (h : s.ownSlotDue = true) : s.Moves { s with bus := { s.bus with txen := true } }
  /-- QUERY_MIRROR clears the counts. -/
  | countsCleared (e : Exchange) : s.Moves { s.clearCounts with exchange := e }
  /-- CONFIGURE is accepted. -/
  | configured {p : List Byte} {c : Configuration} (e : Exchange) (hst : s.bus.station = .unconfigured)
    (hd : decodeConfiguration p = some c) : s.Moves { s.applyConfiguration c with exchange := e }
  /-- PLAN is accepted. -/
  | planned {n : JunctionNumber} {f : FieldSet} (e : Exchange) (hroom : s.table.length < tableCapacity)
    (hnew : s.junction? n = none) (hf : s.fieldsRefusal n f s.table = none) :
    s.Moves { s with table := insertByStart (plannedRecord n f) s.table, exchange := e }
  /-- AMEND has passed its checks. -/
  | amended {n : JunctionNumber} {r : Junction} {f : FieldSet} (e : Exchange) (hr : s.junction? n = some r)
    (hf : s.fieldsRefusal n f (removeNumber n s.table) = none) :
    s.Moves { (s.amendPath r f).state with exchange := e }
  /-- READ_EVENTS or CLEAR_ALARM. -/
  | reported (r : Reporting) (e : Exchange) : s.Moves { s with reporting := r, exchange := e }

theorem State.Moves.self (s : State) : s.Moves s := .acts s.exchange s.markerPins (Acts.refl s)

theorem State.Moves.of_acts {s t : State} (h : Acts s t) : s.Moves t := .acts s.exchange s.markerPins h

theorem State.Moves.exchange (s : State) (e : Exchange) : s.Moves { s with exchange := e } :=
  .acts e s.markerPins (Acts.refl (s.outside e s.markerPins))

/-- Acting on the part does not read or write the exchange. -/
theorem Acts.withExchange {s t : State} (h : Acts s t) (e : Exchange) :
    Acts { s with exchange := e } { t with exchange := e } :=
  ⟨⟨h.timing, h.config, rfl, h.pins, h.pending, h.reports, h.table, h.ring⟩, h.bus, h.mirror⟩

/-! ### The timing commands -/

theorem State.runPulse_moves (s : State) (m : Moment) (o : BoundaryOrder) (hl : s.timing.refState ≠ .locked) :
    s.Moves (s.runPulse m o) := by
  unfold State.runPulse
  dsimp only
  split
  · next v hd _ =>
    split
    · exact .boundary (.locks m v hl hd) _ o
    · exact .boundary (.locks m v hl hd) _ o
  · exact .timed (.judged m hl)

theorem execReferencePulse_moves (s : State) (m : Moment) (o : BoundaryOrder) :
    ∃ t, execReferencePulse m o s = .next t ∧ s.Moves t := by
  unfold execReferencePulse
  split
  · next p hl _ =>
    split
    · exact ⟨_, rfl, .boundary (.pulse m hl) _ o⟩
    · exact ⟨_, rfl, .self s⟩
  · exact ⟨_, rfl, .self s⟩
  · next hs => exact ⟨_, rfl, s.runPulse_moves m o (by simp [hs])⟩
  · next hs => exact ⟨_, rfl, s.runPulse_moves m o (by simp [hs])⟩

theorem execReferenceWindowClose_moves (s : State) (o : BoundaryOrder) :
    ∃ t, execReferenceWindowClose o s = .next t ∧ s.Moves t := by
  unfold execReferenceWindowClose
  split
  · next p hl _ =>
    split
    · exact ⟨_, rfl, .boundary (.substituted _ hl) _ o⟩
    · exact ⟨_, rfl, .boundary (.lost _ _ hl) _ o⟩
  · exact ⟨_, rfl, .self s⟩
  · next hsome hnone =>
    split
    · refine ⟨_, rfl, .timed (.broken fun hl => ?_)⟩
      cases hp : s.timing.period with
      | none => exact hnone hl hp
      | some p => exact hsome p hl hp
    · exact ⟨_, rfl, .self s⟩

theorem execFreeRunExpiry_moves (s : State) (o : BoundaryOrder) :
    ∃ t, execFreeRunExpiry o s = .next t ∧ s.Moves t := by
  unfold execFreeRunExpiry
  split
  · next hs _ _ => exact ⟨_, rfl, .boundary (.freeRun _ _ hs) _ o⟩
  · exact ⟨_, rfl, .self s⟩

/-! ### The cue bus and the marker lines -/

theorem execSlotEnd_moves (s : State) (heard : SlotHeard) : ∃ t, execSlotEnd heard s = .next t ∧ s.Moves t := by
  unfold execSlotEnd
  split
  · next hc hcy =>
    split
    · next hlt => exact ⟨_, rfl, .slot hc hcy hlt heard⟩
    · exact ⟨_, rfl, .self s⟩
  · exact ⟨_, rfl, .self s⟩

theorem execCycleClose_moves (s : State) : ∃ t, execCycleClose s = .next t ∧ s.Moves t := by
  unfold execCycleClose
  split
  · next hc hcy =>
    split
    · next hlast => exact ⟨_, rfl, .close hc hcy hlast⟩
    · exact ⟨_, rfl, .self s⟩
  · exact ⟨_, rfl, .self s⟩

theorem execOwnSlotStart_moves (s : State) : ∃ t, execOwnSlotStart s = .next t ∧ s.Moves t := by
  unfold execOwnSlotStart
  split
  · next h => exact ⟨_, rfl, .driven h⟩
  · exact ⟨_, rfl, .self s⟩

theorem execLineEdgeSettled_moves (s : State) (i : Fin 4) (l : Level) :
    ∃ t, execLineEdgeSettled i l s = .next t ∧ s.Moves t := by
  unfold execLineEdgeSettled
  split
  · exact ⟨_, rfl, .self s⟩
  · exact ⟨_, rfl, .acts s.exchange (s.markerPins.set i l) (Acts.lineEdge _ i l)⟩

theorem execMarkerPacket_moves (s : State) (code check : Half) :
    ∃ t, execMarkerPacket code check s = .next t ∧ s.Moves t := by
  unfold execMarkerPacket
  split
  · split
    · exact ⟨_, rfl, .of_acts (Acts.markers s _)⟩
    · exact ⟨_, rfl, .self s⟩
  · exact ⟨_, rfl, .self s⟩

/-! ### The words of the store link -/

theorem execStoreBlock_moves (s : State) (i : Nat) (header parity : LinkWord) (p : List LinkWord) :
    ∃ t, execStoreBlock i header p parity s = .next t ∧ s.Moves t := by
  unfold execStoreBlock
  cases s.engine.state with
  | requesting | receiving => exact ⟨_, rfl, .of_acts (Acts.receiveBlock s _ _ _)⟩
  | idle | backoff | halted => exact ⟨_, rfl, .self s⟩

theorem execStoreEnd_moves (s : State) : ∃ t, execStoreEnd s = .next t ∧ s.Moves t := by
  unfold execStoreEnd
  cases s.engine.state with
  | requesting => exact ⟨_, rfl, .of_acts (Acts.endBrokenRun s)⟩
  | receiving =>
    dsimp only
    split
    · exact ⟨_, rfl, .of_acts (Acts.endBrokenRun s)⟩
    · exact ⟨_, rfl, .of_acts (Acts.endKeptRun s)⟩
  | idle | backoff | halted => exact ⟨_, rfl, .self s⟩

theorem execStoreDisconnect_moves (s : State) : ∃ t, execStoreDisconnect s = .next t ∧ s.Moves t := by
  unfold execStoreDisconnect
  cases s.engine.state with
  | requesting => exact ⟨_, rfl, .of_acts (Acts.endBrokenRun s)⟩
  | receiving =>
    dsimp only
    split
    · exact ⟨_, rfl, .of_acts (Acts.endBrokenRun s)⟩
    · exact ⟨_, rfl, .of_acts (Acts.endKeptRun s)⟩
  | idle | backoff | halted => exact ⟨_, rfl, .self s⟩

theorem execStoreRetry_moves (s : State) : ∃ t, execStoreRetry s = .next t ∧ s.Moves t := by
  unfold execStoreRetry
  cases s.engine.state with
  | requesting => exact ⟨_, rfl, .of_acts (Acts.retryReply s)⟩
  | receiving => exact ⟨_, rfl, .of_acts (Acts.wordInRun s)⟩
  | idle | backoff | halted => exact ⟨_, rfl, .self s⟩

theorem execStoreAbort_moves (s : State) : ∃ t, execStoreAbort s = .next t ∧ s.Moves t := by
  unfold execStoreAbort
  cases s.engine.state with
  | requesting => exact ⟨_, rfl, .of_acts (Acts.abortReply s)⟩
  | receiving => exact ⟨_, rfl, .of_acts (Acts.wordInRun s)⟩
  | idle | backoff | halted => exact ⟨_, rfl, .self s⟩

theorem execBackoffExpiry_moves (s : State) : ∃ t, execBackoffExpiry s = .next t ∧ s.Moves t := by
  unfold execBackoffExpiry
  cases s.engine.state with
  | backoff =>
    dsimp only
    split
    · exact ⟨_, rfl, .of_acts (Acts.reissue s)⟩
    · exact ⟨_, rfl, .of_acts (Acts.resend s)⟩
  | idle | requesting | receiving | halted => exact ⟨_, rfl, .self s⟩

theorem execNoAnswerLimit_moves (s : State) : ∃ t, execNoAnswerLimit s = .next t ∧ s.Moves t := by
  unfold execNoAnswerLimit
  cases s.engine.state with
  | requesting | receiving => exact ⟨_, rfl, .of_acts (Acts.haltFetch s)⟩
  | idle | backoff | halted => exact ⟨_, rfl, .self s⟩

/-! ### Orders -/

theorem execOselAsserted_moves (s : State) : ∃ t, execOselAsserted s = .next t ∧ s.Moves t := by
  unfold execOselAsserted
  split
  · exact ⟨_, rfl, .exchange s _⟩
  · exact ⟨_, rfl, .self s⟩
  · exact ⟨_, rfl, .self s⟩

/-- An order frame moves the part as the order's own rules do, or touches the exchange alone. -/
theorem State.takeOrder_moves {s : State} {run : State → Answer} (h : s.Moves (run s).sent) (k : Byte) (p : List Byte)
    (crc : Half) (fits : Bool) : s.Moves (s.takeOrder k p crc fits run) := by
  obtain ⟨-, -, -, htaken⟩ | hframe := s.takeOrder_cases k p crc fits run
  · rw [htaken]
    exact h
  · rw [hframe]
    exact .exchange s _

/-- The answer of an order whose own rules act on the part. -/
theorem State.Moves.answer {s : State} {a : Answer} (h : Acts s a.state) : s.Moves a.sent :=
  .acts _ s.markerPins (h.withExchange (.replying a.reply))

theorem State.configure_moves (s : State) (p : List Byte) : s.Moves (s.configure p).sent := by
  unfold State.configure
  split
  · exact .exchange s _
  · next hst =>
    split
    · next c hd => exact .configured _ (not_ne_iff.1 hst) hd
    · exact .exchange s _

theorem State.plan_moves (s : State) (p : List Byte) : s.Moves (s.plan p).sent := by
  unfold State.plan
  dsimp only
  split
  · exact .exchange s _
  · split
    · exact .exchange s _
    · next hroom =>
      split
      · exact .exchange s _
      · next hnew =>
        split
        · exact .exchange s _
        · split
          · exact .exchange s _
          · next hf => exact .planned _ (not_le.1 hroom) (Option.not_isSome_iff_eq_none.1 hnew) hf

theorem State.amend_moves (s : State) (p : List Byte) : s.Moves (s.amend p).sent := by
  unfold State.amend
  dsimp only
  split
  · exact .exchange s _
  · split
    · exact .exchange s _
    · next hr =>
      split
      · exact .exchange s _
      · split
        · exact .exchange s _
        · split
          · exact .exchange s _
          · next hf => exact .amended _ hr hf

theorem Acts.cancel (s : State) (n : JunctionNumber) : Acts s (s.cancel n).state := by
  unfold State.cancel
  split
  · exact Acts.refl s
  · split
    · exact Acts.requestRelease s _
    · exact Acts.endRecord s _ _

theorem Acts.layoutOrder (s : State) (p : List Byte) : Acts s (s.layoutOrder p).state := by
  unfold State.layoutOrder
  dsimp only
  split
  · exact Acts.refl s
  · split
    · exact Acts.layouts s _
    · exact Acts.refl s

theorem Acts.resumeOrder (s : State) : Acts s s.resumeOrder.state := by
  unfold State.resumeOrder
  split
  · exact Acts.resume s
  · exact Acts.refl s

theorem Acts.queryJunction (s : State) (n : JunctionNumber) : Acts s (s.queryJunction n).state := by
  unfold State.queryJunction
  split <;> exact Acts.refl s

theorem State.queryMirror_moves (s : State) (choice : Nat) : s.Moves (s.queryMirror choice).sent := by
  unfold State.queryMirror
  split
  · exact .exchange s _
  · split
    · exact .countsCleared _
    · exact .exchange s _

theorem State.readEvents_sent_moves (s : State) (n : Nat) : s.Moves (s.readEvents n).sent := by
  unfold State.readEvents
  split
  · exact .reported _ _
  · exact .exchange s _

theorem State.clearAlarm_sent_moves (s : State) (a : Nat) (c : Byte) : s.Moves (s.clearAlarm a c).sent := by
  unfold State.clearAlarm
  split
  · exact .exchange s _
  · dsimp only
    split
    · exact .reported _ _
    · exact .exchange s _

/-! ### All commands -/

/-- Every command answers a next state, by one of the moves. -/
theorem exec_moves (c : Instr) (s : State) : ∃ t, exec c s = .next t ∧ s.Moves t := by
  cases c with
  | reset => exact ⟨_, rfl, .reset⟩
  | referencePulse m o => exact execReferencePulse_moves s m o
  | referenceWindowClose o => exact execReferenceWindowClose_moves s o
  | freeRunExpiry o => exact execFreeRunExpiry_moves s o
  | countWord w => exact ⟨_, rfl, .timed (.word w)⟩
  | slotEnd heard => exact execSlotEnd_moves s heard
  | cycleClose => exact execCycleClose_moves s
  | ownSlotStart => exact execOwnSlotStart_moves s
  | lineEdgeSettled i l => exact execLineEdgeSettled_moves s i l
  | markerPacket code check => exact execMarkerPacket_moves s code check
  | storeBlock i header p parity => exact execStoreBlock_moves s i header parity p
  | storeEnd => exact execStoreEnd_moves s
  | storeDisconnect => exact execStoreDisconnect_moves s
  | storeRetry => exact execStoreRetry_moves s
  | storeAbort => exact execStoreAbort_moves s
  | backoffExpiry => exact execBackoffExpiry_moves s
  | noAnswerLimit => exact execNoAnswerLimit_moves s
  | oselAsserted => exact execOselAsserted_moves s
  | oselDeasserted => exact ⟨_, rfl, .exchange s _⟩
  | configure p crc => exact ⟨_, rfl, State.takeOrder_moves (s.configure_moves p) _ _ _ _⟩
  | plan p crc => exact ⟨_, rfl, State.takeOrder_moves (s.plan_moves p) _ _ _ _⟩
  | amend p crc => exact ⟨_, rfl, State.takeOrder_moves (s.amend_moves p) _ _ _ _⟩
  | cancel p crc => exact ⟨_, rfl, State.takeOrder_moves (.answer (Acts.cancel s _)) _ _ _ _⟩
  | withdrawAll p crc =>
    exact ⟨_, rfl, State.takeOrder_moves (run := State.withdrawAll) (.answer (Acts.endRecords s _ _)) _ _ _ _⟩
  | layout p crc => exact ⟨_, rfl, State.takeOrder_moves (.answer (Acts.layoutOrder s p)) _ _ _ _⟩
  | resumeFetch p crc => exact ⟨_, rfl, State.takeOrder_moves (.answer (Acts.resumeOrder s)) _ _ _ _⟩
  | queryStatus p crc =>
    exact ⟨_, rfl, State.takeOrder_moves (run := fun s => s.accept s.statusReport) (.answer (Acts.refl s)) _ _ _ _⟩
  | queryJunction p crc => exact ⟨_, rfl, State.takeOrder_moves (.answer (Acts.queryJunction s _)) _ _ _ _⟩
  | queryMirror p crc => exact ⟨_, rfl, State.takeOrder_moves (s.queryMirror_moves _) _ _ _ _⟩
  | readEvents p crc => exact ⟨_, rfl, State.takeOrder_moves (s.readEvents_sent_moves _) _ _ _ _⟩
  | clearAlarm p crc => exact ⟨_, rfl, State.takeOrder_moves (s.clearAlarm_sent_moves _ _) _ _ _ _⟩
  | unknownOrderKind k p crc =>
    exact ⟨_, rfl, State.takeOrder_moves (run := fun s => s.refuse .refusedFormat) (.answer (Acts.refl s)) _ _ _ _⟩

/-- What every move keeps, every step keeps. -/
theorem step_keeps_of_moves {P : State → Prop} (hpending : ∀ s rest, P s → P { s with pending := rest })
    (hmoves : ∀ s t, P s → s.Moves t → P t) {s t : State} (hs : P s) (h : step s = .next t) : P t := by
  refine step_keeps hpending (fun c s t hs h => ?_) hs h
  obtain ⟨t', ht', hm⟩ := exec_moves c s
  rw [h] at ht'
  cases ht'
  exact hmoves s t hs hm

/-! ### AMEND's effect -/

/-- An accepted AMEND leaves the blocks around the table alone. -/
structure State.AmendFrame (s t : State) : Prop where
  timing : t.timing = s.timing
  bus : t.bus = s.bus
  mirror : t.mirror = s.mirror
  ring : t.ring = s.ring
  config : t.config = s.config
  pending : t.pending = s.pending

theorem State.AmendFrame.same (s : State) : s.AmendFrame s := ⟨rfl, rfl, rfl, rfl, rfl, rfl⟩

theorem State.amendLocked_frame (s : State) (r : Junction) (f : FieldSet) (p : PromoInUse) :
    s.AmendFrame (s.amendLocked r f p).state := by
  unfold State.amendLocked
  dsimp only
  split <;> exact ⟨rfl, rfl, rfl, rfl, rfl, rfl⟩

theorem State.amendPending_frame (s : State) (r : Junction) (f : FieldSet) (p : PromoInUse) :
    s.AmendFrame (s.amendPending r f p).state := by
  unfold State.amendPending
  dsimp only
  split
  · exact ⟨rfl, rfl, rfl, rfl, rfl, rfl⟩
  · split <;> exact ⟨rfl, rfl, rfl, rfl, rfl, rfl⟩

theorem State.amendPath_frame (s : State) (r : Junction) (f : FieldSet) : s.AmendFrame (s.amendPath r f).state := by
  unfold State.amendPath
  cases r.state with
  | locked =>
    dsimp only
    split
    · exact s.amendLocked_frame _ _ _
    · exact s.amendPending_frame _ _ _
  | opened =>
    dsimp only
    split <;> exact ⟨rfl, rfl, rfl, rfl, rfl, rfl⟩
  | planned | primed | squeezeIn | hold | release => exact ⟨rfl, rfl, rfl, rfl, rfl, rfl⟩

/-! ### The queue and the timing unit -/

theorem State.Moves.pending {s t : State} (h : s.Moves t) : t.pending = s.pending := by
  cases h with
  | acts e pins h => exact h.pending
  | boundary h b o => exact (Works.issueBoundary _ b o).pending
  | slot _ _ _ heard => exact (Works.slotEnded s _ _ heard).pending
  | close => exact (Works.close s _ _).pending
  | amended => exact (s.amendPath_frame _ _).pending
  | reset | timed | driven | countsCleared | configured | planned | reported => rfl

/-- Settles O2: each command answers a next state by a move, and no move touches the queue. -/
theorem everyCommandCompletes : Obligations.EveryCommandCompletes := fun c s => by
  obtain ⟨t, ht, hm⟩ := exec_moves c s
  exact ⟨t, ht, hm.pending⟩

theorem State.Moves.timing {s t : State} (h : s.Moves t) (hs : s.timing.Sound) : t.timing.Sound := by
  cases h with
  | reset => exact Timing.reset_sound
  | timed h => exact h.sound hs
  | boundary h b o => rw [(Works.issueBoundary _ b o).timing]; exact h.sound hs
  | acts e pins h => rw [h.timing]; exact hs
  | slot _ _ _ heard => rw [(Works.slotEnded s _ _ heard).timing]; exact hs
  | close => rw [(Works.close s _ _).timing]; exact hs
  | amended => dsimp only; rw [(s.amendPath_frame _ _).timing]; exact hs
  | driven | countsCleared | configured | planned | reported => exact hs

/-- Settles O5: only the timing commands move the unit, and each of its moves keeps it sound. -/
theorem timingSoundKept : Obligations.TimingSoundKept := fun _ _ =>
  step_keeps_of_moves (P := fun s => s.timing.Sound) (fun _ _ h => h) (fun _ _ hs h => h.timing hs)

/-! ### The Frame Ring (R172) -/

theorem Ring.sound_replicate (r : Ring) (h : r.order = []) (d : Nat) :
    ({ r with slots := List.replicate d none } : Ring).Sound := by
  refine ⟨by simp [h], fun i => ?_⟩
  simp [h, List.getElem?_replicate]

/-- A ring that is sound and has no slots lists none. -/
theorem Ring.Sound.order_nil {r : Ring} (h : r.Sound) (h0 : r.slots.length = 0) : r.order = [] := by
  refine List.eq_nil_iff_forall_not_mem.2 fun i hi => ?_
  obtain ⟨t, ht⟩ := (h.listed i).1 hi
  simp [List.length_eq_zero_iff.1 h0] at ht

theorem State.RingSound.works {s t : State} (h : Works s t) (hs : s.RingSound) : t.RingSound :=
  ⟨h.ring.sound hs.ring, by rw [h.ring.slots, hs.slots, State.depth, State.depth, h.config]⟩

theorem State.RingSound.of_eq {s t : State} (hs : s.RingSound) (hr : t.ring = s.ring) (hc : t.config = s.config) :
    t.RingSound :=
  ⟨hr ▸ hs.ring, by rw [hr, hs.slots, State.depth, State.depth, hc]⟩

/-- An UNCONFIGURED part has no configuration, so its ring has no slots before CONFIGURE makes them. -/
theorem State.RingSound.configured {s : State} {c : Configuration} (hs : s.RingSound) (hc : s.config = none)
    (e : Exchange) : ({ s.applyConfiguration c with exchange := e } : State).RingSound := by
  have h0 : s.ring.slots.length = 0 := by rw [hs.slots, State.depth, hc]
  exact ⟨Ring.sound_replicate s.ring (hs.ring.order_nil h0) c.depth, List.length_replicate⟩

/-- The soundness of the Cue Bus Interface reads the bus and the configuration alone. -/
theorem State.BusSound.of_eq {s t : State} (h : s.BusSound) (hb : t.bus = s.bus) (hc : t.config = s.config) :
    t.BusSound := by
  have hconf {c : Configuration} (hk : s.BusConfigured c) : t.BusConfigured c :=
    ⟨by rw [hb]; exact hk.station, by rw [hb]; exact hk.digest, by rw [hb]; exact hk.own,
      by rw [hb]; exact hk.ownPresent, by rw [hb]; exact hk.condition, by rw [hb]; exact hk.slots,
      by rw [hb]; exact hk.drives⟩
  refine ⟨by rw [hb]; exact h.listening, by rw [hb]; exact h.counting, by rw [hb]; exact h.mismatches,
    by rw [hb]; exact h.driving, by rw [hb]; exact h.entries, by rw [hb]; exact h.held, by rw [hb]; exact h.sending,
    fun c hs => ?_, fun hs => ?_⟩
  · rw [hc] at hs
    obtain ⟨hk, hrange⟩ := h.configured c hs
    exact ⟨hconf hk, hrange⟩
  · rw [State.BusIdle, hb]
    exact h.idle (hc ▸ hs)

theorem State.BusSound.config_none {s : State} (h : s.BusSound) (hst : s.bus.station = .unconfigured) :
    s.config = none := by
  cases hc : s.config with
  | none => rfl
  | some c => exact absurd hst (h.configured c hc).1.station

theorem Ring.reset_sound : Ring.reset.Sound := ⟨by decide, fun i => by simp [Ring.reset]⟩

theorem State.Moves.ring {s t : State} (h : s.Moves t) (hb : s.BusSound) (hs : s.RingSound) : t.RingSound := by
  cases h with
  | reset => exact ⟨Ring.reset_sound, rfl⟩
  | configured e hst _ => exact hs.configured (hb.config_none hst) e
  | acts e pins h => exact State.RingSound.works h.toWorks (hs.of_eq rfl rfl)
  | boundary h b o => exact State.RingSound.works (Works.issueBoundary _ b o) (hs.of_eq rfl rfl)
  | slot _ _ _ heard => exact hs.works (Works.slotEnded s _ _ heard)
  | close => exact hs.works (Works.close s _ _)
  | amended => exact hs.of_eq (s.amendPath_frame _ _).ring (s.amendPath_frame _ _).config
  | timed | driven | countsCleared | planned | reported => exact hs.of_eq rfl rfl

/-- Settles O52: slots are made by CONFIGURE alone, and every block keeps the ring's form. -/
theorem ringSoundKept : Obligations.RingSoundKept := by
  intro s t hb hs h
  cases hp : s.pending with
  | nil =>
    rw [step_of_nil hp] at h
    cases h
    exact hs
  | cons c rest =>
    rw [step_of_cons hp] at h
    obtain ⟨t', ht', hm⟩ := exec_moves c { s with pending := rest }
    rw [h] at ht'
    cases ht'
    exact hm.ring (hb.of_eq rfl rfl) (hs.of_eq rfl rfl)

end Sys2Proof.Machine

/-! PROOFS. The Junction Table's form and order through PLAN, AMEND and every other command (R36, R38, R39). -/

namespace Sys2Proof.Machine

/-! ### Overlap -/

theorem intersects_comm (a b c d : Frame) : intersects a b c d = intersects c d a b := by
  rw [Bool.eq_iff_iff, intersects_iff, intersects_iff]
  tauto

theorem FieldSet.overlaps_comm (f g : FieldSet) : f.overlaps g = g.overlaps f := intersects_comm _ _ _ _

theorem Junction.occupies_eq_false_iff {r : Junction} {f : FieldSet} :
    r.occupies f = false ↔ ∀ g ∈ r.occupied, f.overlaps g = false := by
  cases hp : r.pending <;> simp [Junction.occupies, Junction.occupied, hp]

/-! ### Tables that descend from a table in form -/

theorem TableSound.descends {t t' : List Junction} (hs : TableSound t) (h : Descends t t') : TableSound t' where
  room := by
    have hlen := h.numbers.length_le
    simp only [List.length_map] at hlen
    exact hlen.trans hs.room
  numbered b hb := by
    obtain ⟨a, ha, hn, -⟩ := h.origin b hb
    exact hn ▸ hs.numbered a ha
  distinct := by
    obtain ⟨l, hperm, hsub⟩ := h.numbers
    exact hperm.nodup_iff.1 (hs.distinct.sublist hsub)
  apart a ha b hb hne f hf g hg := by
    obtain ⟨a', ha', hna, hoa⟩ := h.origin a ha
    obtain ⟨b', hb', hnb, hob⟩ := h.origin b hb
    exact hs.apart a' ha' b' hb' (hna ▸ hnb ▸ hne) f (hoa f hf) g (hob g hg)

theorem tableSound_nil : TableSound [] := ⟨by simp, by simp, by simp, by simp⟩

/-- A record with a new number that meets no occupied interval joins the table (R42). -/
theorem TableSound.insert {t : List Junction} {r : Junction} (hs : TableSound t) (hroom : t.length < 16)
    (hn : r.number ≠ 0) (hnew : ∀ a ∈ t, a.number ≠ r.number)
    (hapart : ∀ a ∈ t, ∀ f ∈ r.occupied, ∀ g ∈ a.occupied, f.overlaps g = false) :
    TableSound (insertByStart r t) where
  room := by rw [insertByStart_length]; exact hroom
  numbered a ha := by
    rcases mem_insertByStart.1 ha with rfl | ha
    · exact hn
    · exact hs.numbered a ha
  distinct := by
    refine ((insertByStart_perm r t).map _).nodup_iff.2 (List.nodup_cons.2 ⟨?_, hs.distinct⟩)
    rintro hmem
    obtain ⟨a, ha, hna⟩ := List.mem_map.1 hmem
    exact hnew a ha hna
  apart a ha b hb hne f hf g hg := by
    rcases mem_insertByStart.1 ha with rfl | ha' <;> rcases mem_insertByStart.1 hb with rfl | hb'
    · exact absurd rfl hne
    · exact hapart b hb' f hf g hg
    · rw [FieldSet.overlaps_comm]
      exact hapart a ha' g hg f hf
    · exact hs.apart a ha' b hb' hne f hf g hg

/-! ### Amended tables (R45 to R49) -/

/-- `t'` comes from `t` by an amendment of record `n` to the field set `f`: no number is new or doubled, and no record
occupies an interval that it did not occupy, but for record `n`, which may occupy that of `f`. -/
structure Amends (n : JunctionNumber) (f : FieldSet) (t t' : List Junction) : Prop where
  numbers : (t'.map (·.number)).Subperm (t.map (·.number))
  origin : ∀ b ∈ t', ∃ a ∈ t, b.number = a.number ∧ ∀ g ∈ b.occupied, g ∈ a.occupied ∨ a.number = n ∧ g = f

theorem Amends.refl (n : JunctionNumber) (f : FieldSet) (t : List Junction) : Amends n f t t :=
  ⟨List.Subperm.refl _, fun b hb => ⟨b, hb, rfl, fun _ hg => .inl hg⟩⟩

theorem Amends.descends {n : JunctionNumber} {f : FieldSet} {t t' t'' : List Junction} (h : Amends n f t t')
    (g : Descends t' t'') : Amends n f t t'' := by
  refine ⟨g.numbers.trans h.numbers, fun c hc => ?_⟩
  obtain ⟨b, hb, hcb, hocc⟩ := g.origin c hc
  obtain ⟨a, ha, hba, hocc'⟩ := h.origin b hb
  exact ⟨a, ha, hcb.trans hba, fun x hx => hocc' x (hocc x hx)⟩

/-- The record takes the new field set in its new place. -/
theorem Amends.replace {t : List Junction} {r : Junction} (hr : r ∈ t) (f : FieldSet) (p : PromoInUse) :
    Amends r.number f t (insertByStart { r with fields := f, promo := p } (removeNumber r.number t)) := by
  refine ⟨((insertByStart_perm _ _).map _).subperm.trans (numbers_replace ⟨r, hr, rfl⟩), fun b hb => ?_⟩
  rcases mem_insertByStart.1 hb with rfl | hb
  · refine ⟨r, hr, rfl, fun g hg => ?_⟩
    rcases List.mem_cons.1 hg with rfl | hg
    · exact .inr ⟨rfl, rfl⟩
    · exact .inl (List.mem_cons_of_mem _ hg)
  · exact ⟨b, (List.mem_filter.1 hb).1, rfl, fun _ hg => .inl hg⟩

/-- The new field set becomes the pending amendment. -/
theorem Amends.setPending (n : JunctionNumber) (f : FieldSet) (p : PromoInUse) (t : List Junction) : Amends n f t
    (t.map (fun x => if x.number == n then { x with pending := some { fields := f, promo := p } } else x)) := by
  constructor
  · have hnumbers : (fun x : Junction => x.number) ∘
        (fun x => if x.number == n then { x with pending := some { fields := f, promo := p } } else x) =
          (·.number) := by
      funext x
      simp only [Function.comp]
      split <;> rfl
    rw [List.map_map, hnumbers]
  · intro b hb
    obtain ⟨a, ha, rfl⟩ := List.mem_map.1 hb
    refine ⟨a, ha, by split <;> rfl, fun g hg => ?_⟩
    split at hg
    · next hn =>
      simp only [Junction.occupied, Option.map_some, Option.toList_some, List.mem_cons, List.not_mem_nil,
        or_false] at hg
      rcases hg with rfl | rfl
      · exact .inl (List.mem_cons_self ..)
      · exact .inr ⟨beq_iff_eq.1 hn, rfl⟩
    · exact .inl hg

/-- An amendment to a field set that meets nothing that the other records occupy keeps the table's form. -/
theorem TableSound.amends {n : JunctionNumber} {f : FieldSet} {t t' : List Junction} (hs : TableSound t)
    (h : Amends n f t t') (hf : ∀ a ∈ t, a.number ≠ n → ∀ g ∈ a.occupied, f.overlaps g = false) : TableSound t' where
  room := by
    have hlen := h.numbers.length_le
    simp only [List.length_map] at hlen
    exact hlen.trans hs.room
  numbered b hb := by
    obtain ⟨a, ha, hn, -⟩ := h.origin b hb
    exact hn ▸ hs.numbered a ha
  distinct := by
    obtain ⟨l, hperm, hsub⟩ := h.numbers
    exact hperm.nodup_iff.1 (hs.distinct.sublist hsub)
  apart a ha b hb hne x hx y hy := by
    obtain ⟨a', ha', hna, hoa⟩ := h.origin a ha
    obtain ⟨b', hb', hnb, hob⟩ := h.origin b hb
    have hne' : a'.number ≠ b'.number := hna ▸ hnb ▸ hne
    rcases hoa x hx with hxa | ⟨han, rfl⟩ <;> rcases hob y hy with hyb | ⟨hbn, rfl⟩
    · exact hs.apart a' ha' b' hb' hne' x hxa y hyb
    · rw [FieldSet.overlaps_comm]
      exact hf a' ha' (hbn ▸ hne') x hxa
    · exact hf b' hb' (han ▸ hne'.symm) y hyb
    · exact absurd (han.trans hbn.symm) hne'

/-! ### Order by claim start (R38) -/

/-- The claim starts of the records themselves lie within half the circle of frame values. -/
def FieldsTogether (t : List Junction) : Prop :=
  ∃ base : Frame, ∀ a ∈ t, (a.fields.claimStart - base).toNat < 8388608

theorem StartsTogether.fieldsTogether {t : List Junction} (h : StartsTogether t) : FieldsTogether t := by
  obtain ⟨base, hb⟩ := h
  exact ⟨base, fun a ha => hb a ha a.fields (List.mem_cons_self ..)⟩

theorem FieldsTogether.of_map {t : List Junction} {f : Junction → Junction} (hf : ∀ r, (f r).fields = r.fields)
    (h : FieldsTogether (t.map f)) : FieldsTogether t := by
  obtain ⟨base, hb⟩ := h
  exact ⟨base, fun a ha => by
    have := hb (f a) (List.mem_map_of_mem ha)
    rwa [hf] at this⟩

theorem inOrder_map_iff {t : List Junction} {f : Junction → Junction} (hf : ∀ r, (f r).fields = r.fields) :
    InOrder (t.map f) ↔ InOrder t := by
  rw [InOrder, InOrder, List.pairwise_map]
  simp only [hf]

theorem insertByStart_map {f : Junction → Junction} (hf : ∀ r, (f r).fields = r.fields) (r : Junction)
    (t : List Junction) : insertByStart (f r) (t.map f) = (insertByStart r t).map f := by
  induction t with
  | nil => rfl
  | cons x xs ih =>
    simp only [List.map_cons, insertByStart, hf, ih]
    split <;> rfl

/-- The place of a record depends on the fields alone, so the pending amendments need not be near. -/
theorem InOrder.insertByStart_of_fields {r : Junction} {t : List Junction} (h : InOrder t)
    (w : FieldsTogether (r :: t)) : InOrder (Machine.insertByStart r t) := by
  obtain ⟨base, hb⟩ := w
  let strip : Junction → Junction := fun x => { x with pending := none }
  have hstrip : ∀ x, (strip x).fields = x.fields := fun _ => rfl
  rw [← inOrder_map_iff hstrip, ← insertByStart_map hstrip]
  refine InOrder.insertByStart ((inOrder_map_iff hstrip).2 h) ⟨base, fun a ha f hf => ?_⟩
  rw [← List.map_cons] at ha
  obtain ⟨x, hx, rfl⟩ := List.mem_map.1 ha
  obtain rfl : f = x.fields := by simpa [strip, Junction.occupied] using hf
  exact hb x hx

theorem FieldsTogether.of_insertByStart {r : Junction} {t : List Junction} (h : FieldsTogether (insertByStart r t)) :
    FieldsTogether (r :: t) := by
  obtain ⟨base, hb⟩ := h
  exact ⟨base, fun a ha => hb a (mem_insertByStart.2 (List.mem_cons.1 ha))⟩

/-! ### What the paths of AMEND make of the table -/

/-- The tables to which an accepted AMEND of record `r` to the field set `f` can lead. -/
inductive State.AmendTable (s : State) (r : Junction) (f : FieldSet) (p : PromoInUse) : List Junction → Prop where
  | refused : s.AmendTable r f p s.table
  | replaced :
    s.AmendTable r f p (insertByStart { r with fields := f, promo := p } (removeNumber r.number s.table))
  | superseded : s.AmendTable r f p
    ((insertByStart { r with fields := f, promo := p } (removeNumber r.number s.table)).map
      (fun x => if x.number == r.number then { x with pending := none } else x))
  | pending : s.AmendTable r f p (s.table.map
      (fun x => if x.number == r.number then { x with pending := some { fields := f, promo := p } } else x))

theorem State.amendPending_table (s : State) (r : Junction) (f : FieldSet) (p : PromoInUse) :
    s.AmendTable r f p (s.amendPending r f p).state.table := by
  unfold State.amendPending
  dsimp only
  split
  · exact .pending
  · split
    · exact .pending
    · exact .refused

theorem State.amendLocked_table (s : State) (r : Junction) (f : FieldSet) (p : PromoInUse) :
    s.AmendTable r f p (s.amendLocked r f p).state.table := by
  unfold State.amendLocked
  dsimp only
  split
  · exact .superseded
  · exact .replaced

theorem State.amendPath_table (s : State) (r : Junction) (f : FieldSet) :
    s.AmendTable r f (amendedPromo r.promo f) (s.amendPath r f).state.table := by
  unfold State.amendPath
  cases r.state with
  | locked =>
    dsimp only
    split
    · exact s.amendLocked_table _ _ _
    · exact s.amendPending_table _ _ _
  | opened =>
    dsimp only
    split <;> exact .replaced
  | planned => exact .replaced
  | primed | squeezeIn | hold | release => exact .refused

theorem descends_lapse (n : JunctionNumber) (t : List Junction) :
    Descends t (t.map (fun x => if x.number == n then { x with pending := none } else x)) := by
  refine Descends.map t _ (fun r => by split <;> rfl) (fun r x hx => ?_) (fun r => by split <;> rfl)
  split at hx
  · simp only [Junction.occupied, Option.map_none, Option.toList_none, List.mem_singleton] at hx
    exact hx ▸ List.mem_cons_self ..
  · exact hx

theorem State.AmendTable.amends {s : State} {r : Junction} {f : FieldSet} {p : PromoInUse} {t : List Junction}
    (h : s.AmendTable r f p t) (hr : r ∈ s.table) : Amends r.number f s.table t := by
  cases h with
  | refused => exact Amends.refl _ _ _
  | replaced => exact Amends.replace hr f p
  | superseded => exact (Amends.replace hr f p).descends (descends_lapse _ _)
  | pending => exact Amends.setPending _ _ _ _

theorem State.AmendTable.inOrder {s : State} {r : Junction} {f : FieldSet} {p : PromoInUse} {t : List Junction}
    (h : s.AmendTable r f p t) (w : StartsTogether t) (ho : InOrder s.table) : InOrder t := by
  have hplace (w : FieldsTogether (insertByStart { r with fields := f, promo := p } (removeNumber r.number s.table))) :=
    InOrder.insertByStart_of_fields (ho.filter _) w.of_insertByStart
  cases h with
  | refused => exact ho
  | replaced => exact hplace w.fieldsTogether
  | superseded =>
    have hf : ∀ x : Junction, (if x.number == r.number then { x with pending := none } else x).fields = x.fields :=
      fun x => by split <;> rfl
    exact (inOrder_map_iff hf).2 (hplace (w.fieldsTogether.of_map hf))
  | pending => exact (inOrder_map_iff fun x => by split <;> rfl).2 ho

/-! ### The checks that PLAN and AMEND share (R41, R44) -/

theorem State.fieldsRefusal_none {s : State} {n : JunctionNumber} {f : FieldSet} {others : List Junction}
    (h : s.fieldsRefusal n f others = none) :
    s.fieldsInRange n f = true ∧ ∀ a ∈ others, ∀ g ∈ a.occupied, f.overlaps g = false := by
  unfold State.fieldsRefusal at h
  split at h
  · cases h
  · next hrange =>
    split at h
    · cases h
    · split at h
      · cases h
      · next hover =>
        refine ⟨by simpa using hrange, fun a ha => Junction.occupies_eq_false_iff.1 (Bool.eq_false_iff.2 fun hc => ?_)⟩
        exact hover (List.any_eq_true.2 ⟨a, ha, hc⟩)

theorem State.fieldsInRange_number {s : State} {n : JunctionNumber} {f : FieldSet} (h : s.fieldsInRange n f = true) :
    n ≠ 0 := by
  simp only [State.fieldsInRange, Bool.and_eq_true, bne_iff_ne] at h
  grind

theorem State.junction?_eq_none_iff {s : State} {n : JunctionNumber} :
    s.junction? n = none ↔ ∀ a ∈ s.table, a.number ≠ n := by
  simp [State.junction?]

/-! ### Every command -/

theorem State.Moves.tableSound {s t : State} (h : s.Moves t) (hs : TableSound s.table) : TableSound t.table := by
  cases h with
  | reset => exact tableSound_nil
  | acts e pins h => exact hs.descends h.table
  | @boundary q h b o => exact hs.descends (Works.issueBoundary { s with timing := q } b o).table
  | slot _ _ _ heard => exact hs.descends (Works.slotEnded s _ _ heard).table
  | close => exact hs.descends (Works.close s _ _).table
  | timed | driven | countsCleared | configured | reported => exact hs
  | @planned n f e hroom hnew hf =>
    obtain ⟨hrange, hapart⟩ := State.fieldsRefusal_none hf
    refine hs.insert hroom (State.fieldsInRange_number hrange) (State.junction?_eq_none_iff.1 hnew) ?_
    intro a ha g hg x hx
    obtain rfl : g = f := by simpa [Junction.occupied, plannedRecord] using hg
    exact hapart a ha x hx
  | @amended n r f e hr hf =>
    obtain ⟨hmem, rfl⟩ := State.junction?_mem hr
    obtain ⟨-, hapart⟩ := State.fieldsRefusal_none hf
    refine hs.amends ((s.amendPath_table r f).amends hmem) fun a ha hne => hapart a (List.mem_filter.2 ⟨ha, ?_⟩)
    simpa using hne

theorem State.Moves.inOrder {s t : State} (h : s.Moves t) (ws : StartsTogether s.table) (wt : StartsTogether t.table)
    (ho : InOrder s.table) : InOrder t.table := by
  cases h with
  | reset => exact List.Pairwise.nil
  | acts e pins h => exact h.table.order ws ho
  | @boundary q h b o => exact (Works.issueBoundary { s with timing := q } b o).table.order ws ho
  | slot _ _ _ heard => exact (Works.slotEnded s _ _ heard).table.order ws ho
  | close => exact (Works.close s _ _).table.order ws ho
  | timed | driven | countsCleared | configured | reported => exact ho
  | planned => exact InOrder.insertByStart_of_fields ho wt.fieldsTogether.of_insertByStart
  | amended => exact (s.amendPath_table _ _).inOrder wt ho

/-- Settles O39: every block's operations descend, PLAN inserts a record that meets nothing, and AMEND's paths move one
record to a field set that meets nothing. -/
theorem tableSoundKept : Obligations.TableSoundKept := by
  intro s t h
  refine ⟨fun hs => ?form, fun ws wt ho => ?order⟩
  case form =>
    exact step_keeps_of_moves (P := fun s => TableSound s.table) (fun _ _ h => h) (fun _ _ hs hm => hm.tableSound hs)
      hs h
  case order =>
    cases hp : s.pending with
    | nil =>
      rw [step_of_nil hp] at h
      cases h
      exact ho
    | cons c rest =>
      rw [step_of_cons hp] at h
      obtain ⟨t', ht', hm⟩ := exec_moves c { s with pending := rest }
      rw [h] at ht'
      cases ht'
      exact hm.inOrder ws wt ho

end Sys2Proof.Machine

/-! PROOFS. The Cue Bus Interface and the Claim Mirror, entry by entry, and what each operation makes of the two
(Chapters 2 and 4). -/

namespace Sys2Proof.Machine

/-! ### Entries -/

theorem CueBus.entry_setEntry (b : CueBus) (i j : Nat) (e : PresenceEntry) :
    (b.setEntry i e).entry j = if j = i ∧ i < 16 then e else b.entry j := by
  simp only [CueBus.entry, CueBus.setEntry, Vector.getElem?_setIfInBounds]
  grind

theorem CueBus.entry_setEntry_other (b : CueBus) {i j : Nat} (e : PresenceEntry) (h : j ≠ i) :
    (b.setEntry i e).entry j = b.entry j := by
  rw [CueBus.entry_setEntry, if_neg (fun hc => h hc.1)]

theorem CueBus.entry_setEntry_same (b : CueBus) {i : Nat} (e : PresenceEntry) (h : i < 16) :
    (b.setEntry i e).entry i = e := by
  rw [CueBus.entry_setEntry, if_pos ⟨rfl, h⟩]

theorem Mirror.entry_setEntry (m : Mirror) (i j : Nat) (e : MirrorEntry) :
    (m.setEntry i e).entry j = if j = i ∧ i < 16 then e else m.entry j := by
  simp only [Mirror.entry, Mirror.setEntry, Vector.getElem?_setIfInBounds]
  grind

theorem Mirror.entry_setEntry_other (m : Mirror) {i j : Nat} (e : MirrorEntry) (h : j ≠ i) :
    (m.setEntry i e).entry j = m.entry j := by
  rw [Mirror.entry_setEntry, if_neg (fun hc => h hc.1)]

theorem Mirror.entry_setEntry_same (m : Mirror) {i : Nat} (e : MirrorEntry) (h : i < 16) :
    (m.setEntry i e).entry i = e := by
  rw [Mirror.entry_setEntry, if_pos ⟨rfl, h⟩]

/-- The entry of a number that is no station is the reset entry, on the bus and in the mirror. -/
theorem CueBus.entry_of_ge (b : CueBus) {i : Nat} (h : 16 ≤ i) : b.entry i = PresenceEntry.reset := by
  simp [CueBus.entry, h]

theorem Mirror.entry_of_ge (m : Mirror) {i : Nat} (h : 16 ≤ i) : m.entry i = MirrorEntry.reset := by
  simp [Mirror.entry, h]

theorem CueBus.reset_entry (i : Nat) : CueBus.reset.entry i = PresenceEntry.reset := by
  simp only [CueBus.entry, CueBus.reset, Vector.getElem?_replicate]
  split <;> rfl

theorem Mirror.reset_entry (i : Nat) : Mirror.reset.entry i = MirrorEntry.reset := by
  simp only [Mirror.entry, Mirror.reset, Vector.getElem?_replicate]
  split <;> rfl

/-! ### The group mismatch condition (R29) -/

theorem CueBus.mismatched_iff {b : CueBus} {own : Nat} : b.mismatched own = true ↔
    ∃ i < 16, i ≠ own ∧ (b.entry i).state = .present ∧ (b.entry i).mismatch = true := by
  simp [CueBus.mismatched, stations, and_assoc]

/-- The condition reads the states and mismatch flags of the peers alone. -/
theorem CueBus.mismatched_congr {b b' : CueBus} {own : Nat}
    (h : ∀ i, i ≠ own → (b'.entry i).state = (b.entry i).state ∧ (b'.entry i).mismatch = (b.entry i).mismatch) :
    b'.mismatched own = b.mismatched own := by
  rw [Bool.eq_iff_iff, CueBus.mismatched_iff, CueBus.mismatched_iff]
  refine exists_congr fun i => and_congr_right fun _ => and_congr_right fun hi => ?_
  rw [(h i hi).1, (h i hi).2]

/-- The bus once the group mismatch condition has been evaluated. -/
def CueBus.reevaluated (b : CueBus) (own : Nat) : CueBus := { b with groupMismatch := b.mismatched own }

@[simp] theorem CueBus.reevaluated_entry (b : CueBus) (own i : Nat) : (b.reevaluated own).entry i = b.entry i := rfl

@[simp] theorem CueBus.reevaluated_mismatched (b : CueBus) (own other : Nat) :
    (b.reevaluated own).mismatched other = b.mismatched other := rfl

/-- Evaluating the condition moves it alone, and reports when it begins to hold (R29). -/
theorem State.reevaluate_spec (s : State) (own peer : Nat) :
    s.reevaluate own peer = { s with
      bus := s.bus.reevaluated own
      reporting := if s.bus.mismatched own = true ∧ s.bus.groupMismatch = false
        then (s.raiseAlarm .groupMismatch (detailNat peer) none).reporting else s.reporting } := by
  unfold State.reevaluate
  dsimp only
  by_cases h : s.bus.mismatched own = true ∧ s.bus.groupMismatch = false
  · rw [if_pos h, if_pos (by simp [h.1, h.2])]
    rfl
  · rw [if_neg h, if_neg (by simpa using h)]
    rfl

/-! ### The slots of peers (R22, R23, R58, R60) -/

/-- The bus after a peer's GOOD slot. -/
theorem State.goodSlot_bus (s : State) (own i : Nat) (hf : Frame) (h : HeardBeacon) :
    (s.goodSlot own i hf h).bus =
      (s.bus.setEntry i ((s.bus.entry i).good s.bus.digest hf h)).reevaluated own := by
  unfold State.goodSlot
  dsimp only
  rw [State.reevaluate_spec]
  split <;> rfl

theorem State.goodSlot_mirror (s : State) (own i : Nat) (hf : Frame) (h : HeardBeacon) :
    (s.goodSlot own i hf h).mirror = s.mirror.setEntry i (MirrorEntry.written h.claims hf) := by
  unfold State.goodSlot
  dsimp only
  rw [State.reevaluate_spec]
  split <;> rfl

/-- A PRESENT peer's slot is its eighth missed one. -/
def PresenceEntry.leavesNow (e : PresenceEntry) : Prop := e.state = .present ∧ 7 ≤ e.missed

/-- A missed peer's entry once it has become ABSENT. -/
def PresenceEntry.gone (e : PresenceEntry) : PresenceEntry := { e with state := .absent, mismatch := false }

theorem State.missedSlot_stays {s : State} {i : Nat} (own : Nat) (carrier : Bool) (h : ¬ (s.bus.entry i).leavesNow) :
    s.missedSlot own i carrier =
      { s with bus := s.bus.setEntry i ((s.bus.entry i).miss carrier) } := by
  unfold State.missedSlot
  dsimp only
  refine if_neg fun ⟨hp, h8⟩ => h ⟨hp, ?_⟩
  simp only [PresenceEntry.miss] at h8
  omega

/-- The bus, the mirror and the events after the slot at which a peer becomes ABSENT. -/
theorem State.missedSlot_leaves {s : State} {i : Nat} (own : Nat) (carrier : Bool) (h : (s.bus.entry i).leavesNow)
    (h16 : i < 16) :
    let b := s.bus.setEntry i ((s.bus.entry i).miss carrier)
    let u : State := { s with
      bus := b.setEntry i ((s.bus.entry i).miss carrier).gone
      mirror := s.mirror.setEntry i MirrorEntry.reset }
    s.missedSlot own i carrier = (u.reevaluate own i).post .stationAbsent none 0 (detailNat i) := by
  dsimp only
  unfold State.missedSlot
  dsimp only
  have h8 : 8 ≤ min ((s.bus.entry i).missed + 1) 8 := by
    have := h.2
    omega
  rw [if_pos ⟨h.1, h8⟩]
  simp only [State.peerAbsent, CueBus.entry_setEntry_same _ _ h16]
  rfl

/-! ### Leaving MEMBER (R20, R32, R62) -/

/-- The bus of a station that has left MEMBER. -/
def CueBus.left (b : CueBus) (own : Nat) (st : StationState) : CueBus :=
  { b.setOwn own .empty with station := st, held := none, sending := none, txen := false }

theorem State.leaveMember_bus (s : State) (own : Nat) (st : StationState) :
    (s.leaveMember own st).bus = s.bus.left own st := (Acts.publisherLeaves _).bus

theorem State.leaveMember_mirror (s : State) (own : Nat) (st : StationState) :
    (s.leaveMember own st).mirror = s.mirror.setEntry own MirrorEntry.reset := (Acts.publisherLeaves _).mirror

/-! ### Frame boundaries (R14, R16, R32) -/

/-- A boundary's effect on the bus and the mirror is that of the Cue Bus Interface's operation, which reads the bus,
the timing unit and the configuration. -/
theorem State.busBoundary_congr {s u : State} (hb : u.bus = s.bus) (hm : u.mirror = s.mirror)
    (ht : u.timing = s.timing) (hc : u.config = s.config) :
    u.busBoundary.bus = s.busBoundary.bus ∧ u.busBoundary.mirror = s.busBoundary.mirror := by
  have hleave (own : Nat) (st : StationState) (b : CueBus) :
      (({ u with bus := b } : State).leaveMember own st).bus = (({ s with bus := b } : State).leaveMember own st).bus ∧
      (({ u with bus := b } : State).leaveMember own st).mirror =
        (({ s with bus := b } : State).leaveMember own st).mirror := by
    simp only [State.leaveMember_bus, State.leaveMember_mirror, hm, and_self]
  unfold State.busBoundary
  rw [hc, ht]
  cases s.config with
  | none => exact ⟨hb, hm⟩
  | some c =>
    cases s.timing.refState with
    | seeking => exact ⟨hb, hm⟩
    | locked =>
      simp only [State.busLocked, State.openCycle, State.completeBeacon, hb, ht]
      cases s.bus.station <;> simp [hm]
    | holdover =>
      simp only [State.busHoldover, hb]
      cases s.bus.station with
      | member => simp [hleave c.station .silentReference]
      | unconfigured | listening | silentReference | silentClash => simp [hm]

theorem Acts.boundaryOp {op : BoundaryOp} (s : State) (b : Boundary) (x : StartContext) (h : op ≠ .cueBus) :
    Acts s (s.boundaryOp b x op) := by
  cases op with
  | cueBus => exact absurd rfl h
  | decline =>
    unfold State.boundaryOp
    dsimp only
    split
    · exact Acts.declineSilent s _ _
    · exact Acts.refl s
  | jumpEndings =>
    unfold State.boundaryOp
    dsimp only
    split
    · exact Acts.jumpEndings s
    · exact Acts.refl s
  | markers => exact Acts.markersBoundary s _ _ _
  | sequencer => exact Acts.sequencerBoundary s _
  | ring => exact Acts.ringAdvance s
  | layoutLoad => exact Acts.loadAtFrame s
  | referenceLost =>
    unfold State.boundaryOp
    dsimp only
    split
    · exact Acts.raiseAlarm s _ _ _
    · exact Acts.refl s

theorem State.boundaryOps_bus_of_not_mem (b : Boundary) (f : Bool) (s : State) {ops : List BoundaryOp}
    (h : .cueBus ∉ ops) : (s.boundaryOps b f ops).bus = s.bus ∧ (s.boundaryOps b f ops).mirror = s.mirror := by
  induction ops generalizing s with
  | nil => exact ⟨rfl, rfl⟩
  | cons op ops ih =>
    obtain ⟨hop, hops⟩ := not_or.1 (mt List.mem_cons.2 h)
    have hacts := Acts.boundaryOp s b (startContext f ops) (Ne.symm hop)
    obtain ⟨hb, hm⟩ := ih (s.boundaryOp b (startContext f ops) op) hops
    exact ⟨hb.trans hacts.bus, hm.trans hacts.mirror⟩

theorem State.boundaryOps_bus (b : Boundary) (f : Bool) (s : State) {ops : List BoundaryOp} (hmem : .cueBus ∈ ops)
    (hnodup : ops.Nodup) : (s.boundaryOps b f ops).bus = s.busBoundary.bus ∧
      (s.boundaryOps b f ops).mirror = s.busBoundary.mirror := by
  induction ops generalizing s with
  | nil => simp at hmem
  | cons op ops ih =>
    obtain ⟨hop, hops⟩ := List.nodup_cons.1 hnodup
    by_cases h : op = .cueBus
    · subst h
      exact State.boundaryOps_bus_of_not_mem b f s.busBoundary hop
    · have hacts := Acts.boundaryOp s b (startContext f ops) h
      obtain ⟨hb, hm⟩ := ih (s.boundaryOp b (startContext f ops) op) ((List.mem_cons.1 hmem).resolve_left (Ne.symm h))
        hops
      obtain ⟨hb', hm'⟩ := State.busBoundary_congr hacts.bus hacts.mirror hacts.timing hacts.config
      exact ⟨hb.trans hb', hm.trans hm'⟩

/-- The other blocks leave the bus and the mirror alone, so a boundary is the Cue Bus Interface's operation there. -/
theorem State.issueBoundary_bus (s : State) (b : Boundary) (o : BoundaryOrder) :
    (s.issueBoundary b o).bus = s.busBoundary.bus ∧ (s.issueBoundary b o).mirror = s.busBoundary.mirror := by
  have hacts : Acts s (s.postJump b.jump) := by
    unfold State.postJump
    split
    · exact Acts.postAt s _ _ _ _ _
    · exact Acts.refl s
  obtain ⟨hb, hm⟩ := State.boundaryOps_bus b o.storeFirst (s.postJump b.jump)
    ((schedule_perm o).mem_iff.2 (boundaryOp_mem_all _)) (nodup_schedule o)
  obtain ⟨hb', hm'⟩ := State.busBoundary_congr hacts.bus hacts.mirror hacts.timing hacts.config
  exact ⟨hb.trans hb', hm.trans hm'⟩

/-! ### The cycle close (R31, R35) -/

/-- The bus at the entry close, as the station becomes MEMBER (R31). -/
def CueBus.entered (b : CueBus) (own : Nat) : CueBus :=
  { b.setOwn own .present with station := .member, listening := b.listening + 1, mismatches := 0 }

/-- The bus after R31, at a close. -/
def CueBus.listened (b : CueBus) (own : Nat) : CueBus :=
  if b.station = .listening then
    if 7 ≤ b.listening then b.entered own else { b with listening := b.listening + 1 }
  else b

theorem State.listenClose_eq (s : State) (own : Nat) :
    s.listenClose own = { s with bus := s.bus.listened own } := by
  unfold State.listenClose CueBus.listened CueBus.entersMember
  dsimp only
  by_cases hl : s.bus.station = .listening
  · by_cases h7 : 7 ≤ s.bus.listening
    · rw [if_pos (by simp [hl, h7]), if_pos hl, if_pos h7]
      rfl
    · rw [if_neg (by simp; omega), if_pos hl, if_pos hl, if_neg h7]
  · rw [if_neg (by simp [hl]), if_neg hl, if_neg hl]

/-- The state at a close that the publisher finds: R31 done and the mirror resolved. -/
def State.resolvedClose (s : State) (c : Configuration) (hf : Frame) : State :=
  { s with
    bus := ({ s.bus with cycle := none } : CueBus).listened c.station
    mirror := s.mirror.resolved c.concurrency hf }

theorem State.close_eq (s : State) (c : Configuration) (hf : Frame) :
    s.close c hf = (s.resolvedClose c hf).publisherClose
      ((s.resolvedClose c hf).closeContext c hf s.bus.entersMember) := by
  unfold State.close
  dsimp only
  rw [State.listenClose_eq]
  rfl

/-- What the publisher makes of the bus and the mirror at a close outside MEMBER: nothing. -/
theorem State.publisherClose_outside {s : State} {x : CloseContext} (h : x.station ≠ .member) :
    s.publisherClose x = s.closeOutside x := if_neg h

theorem State.publisherClose_member {s : State} {x : CloseContext} (h : x.station = .member) :
    s.publisherClose x = s.closeMember x := if_pos h

/-- The chosen positions at a close in MEMBER, and the state after stage 5. -/
def State.choiceAt (s : State) (x : CloseContext) : State × List Candidate :=
  (((s.stageForfeit x).stageResults x).stageCommits x).stageChoice x

/-- The claims that a close in MEMBER hands on. -/
def State.claimsHandedOn (s : State) (x : CloseContext) : List Claim :=
  (s.choiceAt x).1.handedOn (s.choiceAt x).2

theorem State.closeMember_eq (s : State) (x : CloseContext) :
    s.closeMember x = (s.choiceAt x).1.handOn x (s.claimsHandedOn x) := rfl

/-- At most four positions are filled. -/
theorem State.claimsHandedOn_length (s : State) (x : CloseContext) : (s.claimsHandedOn x).length ≤ 4 := by
  have hchosen : (s.choiceAt x).2.length ≤ 4 := by
    simp only [State.choiceAt, State.stageChoice, List.length_take, claimPositions]
    omega
  exact (List.length_filterMap_le _ _).trans hchosen

theorem Acts.choiceAt (s : State) (x : CloseContext) : Acts s (s.choiceAt x).1 := Acts.memberStages s x

theorem State.closeMember_bus (s : State) (x : CloseContext) : (s.closeMember x).bus = { s.bus with
    held := some
      { station := x.own, digest := s.bus.digest.getD 0, bitmap := s.bus.bitmap, claims := s.claimsHandedOn x } } := by
  rw [State.closeMember_eq, State.handOn]
  dsimp only
  rw [(Acts.choiceAt s x).bus]

theorem State.closeMember_mirror (s : State) (x : CloseContext) :
    (s.closeMember x).mirror = s.mirror.setEntry x.own (MirrorEntry.written (s.claimsHandedOn x) x.hf) := by
  rw [State.closeMember_eq, State.handOn]
  dsimp only
  rw [(Acts.choiceAt s x).mirror]

/-- Resolving the mirror keeps each entry's claims and the frame at which it was written (R63). -/
theorem Mirror.resolved_entry (m : Mirror) (limit : Nat) (hf : Frame) (i : Nat) :
    (m.resolved limit hf).entry i = { m.entry i with
      claims := (m.entry i).claims.map (MirrorClaim.judged (m.results limit hf) i) } := by
  simp only [Mirror.entry, Mirror.resolved, Vector.getElem?_mapIdx]
  cases m.entries[i]? <;> rfl

end Sys2Proof.Machine

/-! PROOFS. The soundness of the Cue Bus Interface through each of its operations (Chapter 2). -/

namespace Sys2Proof.Machine

/-- What `State.BusSound` says of the bus of a part with configuration `c`, item by item. -/
structure CueBus.SoundFor (b : CueBus) (c : Configuration) : Prop where
  listening : b.listening ≤ 8
  counting : b.station = .listening → b.listening ≤ 7
  mismatches : b.mismatches ≤ 3
  driving : b.station = .member → b.mismatches ≤ 2
  entries : ∀ i, (b.entry i).Sound
  held : b.held.isSome → b.station = .member
  sending : b.sending.isSome → b.station = .member
  station : b.station ≠ .unconfigured
  digest : b.digest = some c.digest
  own : (b.entry c.station).Own
  ownPresent : (b.entry c.station).state = .present ↔ b.station = .member
  condition : b.groupMismatch = b.mismatched c.station
  slots : ∀ cy, b.cycle = some cy → cy.nextSlot ≤ c.slots
  drives : b.txen = true → b.station = .member ∧ b.sending.isSome ∧
    ∃ cy, b.cycle = some cy ∧ cy.nextSlot = c.station

theorem State.BusSound.soundFor {s : State} {c : Configuration} (h : s.BusSound) (hc : s.config = some c) :
    s.bus.SoundFor c ∧ c.station < c.slots ∧ c.slots ≤ 16 :=
  have hk := (h.configured c hc).1
  ⟨⟨h.listening, h.counting, h.mismatches, h.driving, h.entries, h.held, h.sending, hk.station, hk.digest, hk.own,
    hk.ownPresent, hk.condition, hk.slots, hk.drives⟩, (h.configured c hc).2⟩

theorem CueBus.SoundFor.busSound {s : State} {c : Configuration} (h : s.bus.SoundFor c) (hc : s.config = some c)
    (hrange : c.station < c.slots ∧ c.slots ≤ 16) : s.BusSound where
  listening := h.listening
  counting := h.counting
  mismatches := h.mismatches
  driving := h.driving
  entries := h.entries
  held := h.held
  sending := h.sending
  configured c' hc' := by
    obtain rfl : c = c' := Option.some.inj (hc.symm.trans hc')
    exact ⟨⟨h.station, h.digest, h.own, h.ownPresent, h.condition, h.slots, h.drives⟩, hrange⟩
  idle hn := by rw [hc] at hn; cases hn

/-! ### Presence entries (R21 to R24) -/

theorem PresenceEntry.reset_sound : PresenceEntry.reset.Sound :=
  ⟨by decide, by decide, by decide, by simp [PresenceEntry.reset], by simp [PresenceEntry.reset]⟩

theorem PresenceEntry.Sound.good {e : PresenceEntry} (h : e.Sound) (own : Option Half) (hf : Frame)
    (b : HeardBeacon) : (e.good own hf b).Sound :=
  ⟨by simp [PresenceEntry.good], h.corrupt, h.silent, by simp [PresenceEntry.good], by simp [PresenceEntry.good]⟩

theorem PresenceEntry.Sound.miss {e : PresenceEntry} (h : e.Sound) (carrier : Bool) : (e.miss carrier).Sound := by
  have hheld (n : Nat) : countHeld n ≤ 65535 := Nat.min_le_right _ _
  refine ⟨Nat.min_le_right _ _, ?_, ?_, fun ha => ?_, h.flag⟩
  · cases carrier
    · exact h.corrupt
    · exact hheld _
  · cases carrier
    · exact hheld _
    · exact h.silent
  · have := h.absent ha
    simp [PresenceEntry.miss, this]

theorem PresenceEntry.Sound.gone {e : PresenceEntry} (h : e.Sound) (h8 : 8 ≤ e.missed) : e.gone.Sound :=
  ⟨h.missed, h.corrupt, h.silent, fun _ => le_antisymm h.missed h8, by simp [PresenceEntry.gone]⟩

theorem PresenceEntry.Own.sound {e : PresenceEntry} (h : e.Own) (ha : e.state ≠ .absent) : e.Sound := by
  rw [h]
  exact ⟨by simp [PresenceEntry.reset], by simp [PresenceEntry.reset], by simp [PresenceEntry.reset],
    fun hh => absurd hh ha, by simp [PresenceEntry.reset]⟩

theorem PresenceEntry.Own.withState {e : PresenceEntry} (h : e.Own) (st : PresenceState) :
    ({ e with state := st } : PresenceEntry).Own := by
  rw [PresenceEntry.Own, h]

theorem CueBus.setOwn_own {b : CueBus} {own : Nat} (st : PresenceState) (h16 : own < 16) :
    (b.setOwn own st).entry own = { b.entry own with state := st } := CueBus.entry_setEntry_same _ _ h16

theorem CueBus.setOwn_other {b : CueBus} {own i : Nat} (st : PresenceState) (h : i ≠ own) :
    (b.setOwn own st).entry i = b.entry i := CueBus.entry_setEntry_other _ _ h

theorem CueBus.SoundFor.setOwn_entries {b : CueBus} {c : Configuration} (h : b.SoundFor c) (h16 : c.station < 16)
    {st : PresenceState} (hst : st ≠ .absent) (i : Nat) : ((b.setOwn c.station st).entry i).Sound := by
  by_cases hi : i = c.station
  · subst hi
    rw [CueBus.setOwn_own st h16]
    exact (h.own.withState st).sound hst
  · rw [CueBus.setOwn_other st hi]
    exact h.entries i

theorem CueBus.setOwn_mismatched (b : CueBus) (own : Nat) (st : PresenceState) :
    (b.setOwn own st).mismatched own = b.mismatched own :=
  CueBus.mismatched_congr fun i hi => by rw [CueBus.setOwn_other st hi]; exact ⟨rfl, rfl⟩

/-! ### Slots -/

/-- The slot pointer goes on, while the station does not drive. -/
theorem CueBus.SoundFor.advanced {b : CueBus} {c : Configuration} {cy : Cycle} (h : b.SoundFor c)
    (hlt : cy.nextSlot < c.slots) (htx : b.txen = false) :
    ({ b with cycle := some { cy with nextSlot := cy.nextSlot + 1 } } : CueBus).SoundFor c :=
  { h with
    slots := by rintro _ ⟨⟩; exact hlt
    drives := fun ht => by simp [htx] at ht }

/-- A peer's entry changes and the condition is evaluated. -/
theorem CueBus.SoundFor.setPeer {b : CueBus} {c : Configuration} (h : b.SoundFor c) {i : Nat} (hi : i ≠ c.station)
    {e : PresenceEntry} (he : e.Sound) : ((b.setEntry i e).reevaluated c.station).SoundFor c :=
  { h with
    entries := fun j => by
      rw [CueBus.reevaluated_entry, CueBus.entry_setEntry]
      split
      · exact he
      · exact h.entries j
    own := by rw [CueBus.reevaluated_entry, CueBus.entry_setEntry_other _ _ hi.symm]; exact h.own
    ownPresent := by rw [CueBus.reevaluated_entry, CueBus.entry_setEntry_other _ _ hi.symm]; exact h.ownPresent
    condition := rfl }

/-- A peer's miss that does not make it ABSENT leaves the condition as it is. -/
theorem CueBus.setEntry_miss_mismatched (b : CueBus) (own i : Nat) (carrier : Bool) :
    (b.setEntry i ((b.entry i).miss carrier)).mismatched own = b.mismatched own := by
  refine CueBus.mismatched_congr fun j _ => ?_
  rw [CueBus.entry_setEntry]
  split
  · next h => rw [h.1]; exact ⟨rfl, rfl⟩
  · exact ⟨rfl, rfl⟩

theorem CueBus.SoundFor.missPeer {b : CueBus} {c : Configuration} (h : b.SoundFor c) {i : Nat} (hi : i ≠ c.station)
    (carrier : Bool) : (b.setEntry i ((b.entry i).miss carrier)).SoundFor c := by
  have hset := h.setPeer hi ((h.entries i).miss carrier)
  refine { hset with condition := ?_ }
  rw [CueBus.setEntry_miss_mismatched]
  exact h.condition

theorem CueBus.SoundFor.peerSlot {s : State} {c : Configuration} (h : s.bus.SoundFor c) {i : Nat}
    (hi : i ≠ c.station) (h16 : i < 16) (hf : Frame) (heard : SlotHeard) :
    (s.peerSlot c.station i hf heard).bus.SoundFor c := by
  unfold State.peerSlot
  split
  · rw [State.goodSlot_bus]
    exact h.setPeer hi ((h.entries i).good _ _ _)
  · by_cases hleaves : (s.bus.entry i).leavesNow
    · rw [State.missedSlot_leaves c.station _ hleaves h16, State.post_bus, State.reevaluate_spec]
      refine (h.missPeer hi (heardCarrier heard)).setPeer hi (((h.entries i).miss (heardCarrier heard)).gone ?_)
      have := hleaves.2
      simp only [PresenceEntry.miss]
      omega
    · rw [State.missedSlot_stays c.station _ hleaves]
      exact h.missPeer hi _

/-- A station that leaves MEMBER for a silent state. -/
theorem CueBus.SoundFor.left {b : CueBus} {c : Configuration} (h : b.SoundFor c) (h16 : c.station < 16)
    {st : StationState} (hst : st = .silentReference ∨ st = .silentClash) : (b.left c.station st).SoundFor c :=
  have hne : st ≠ .listening ∧ st ≠ .member ∧ st ≠ .unconfigured := by rcases hst with rfl | rfl <;> decide
  { h with
    counting := fun hl => absurd hl hne.1
    driving := fun hm => absurd hm hne.2.1
    entries := h.setOwn_entries h16 (by decide)
    held := by simp [CueBus.left]
    sending := by simp [CueBus.left]
    station := hne.2.2
    own := by
      show ((b.setOwn c.station .empty).entry c.station).Own
      rw [CueBus.setOwn_own _ h16]
      exact h.own.withState _
    ownPresent := by
      show ((b.setOwn c.station .empty).entry c.station).state = _ ↔ _
      rw [CueBus.setOwn_own _ h16]
      simp [CueBus.left, hne.2.1]
    condition := h.condition.trans (b.setOwn_mismatched c.station .empty).symm
    drives := by simp [CueBus.left] }

theorem State.slotClash_bus (s : State) (own : Nat) : (s.slotClash own).bus = s.bus.left own .silentClash := by
  rw [State.slotClash, State.raiseAlarm_bus, State.leaveMember_bus]

/-- The own slot of a station that has sent a beacon: CUE_TXEN falls, and the read-back counts. -/
theorem CueBus.SoundFor.readBack {s : State} {c : Configuration} {cy : Cycle} (h : s.bus.SoundFor c)
    (h16 : c.station < 16) (hlt : cy.nextSlot < c.slots) (hm : s.bus.station = .member) (sent : List Byte)
    (heard : SlotHeard) : ((s.pastSlot cy).readBack c.station sent heard).bus.SoundFor c := by
  have hdrive := h.driving hm
  have hcount (k : Nat) (hk : k ≤ 3) (h2 : k ≤ 2 ∨ True) : k ≤ 3 := hk
  have hbase (k : Nat) (hk : k ≤ 2) : ({ s.bus with
      cycle := some { cy with nextSlot := cy.nextSlot + 1 }, txen := false, sending := none
      mismatches := k } : CueBus).SoundFor c :=
    { h with
      mismatches := by show k ≤ 3; omega
      driving := fun _ => hk
      sending := by simp
      slots := by rintro _ ⟨⟩; exact hlt
      drives := by simp }
  unfold State.readBack
  dsimp only [State.pastSlot]
  by_cases hmatch : readBackMatches c.station sent heard = true
  · simp only [hmatch, if_true]
    exact hbase 0 (by omega)
  · simp only [hmatch, Bool.false_eq_true, if_false]
    split
    · rw [State.slotClash_bus]
      have hleft := (hbase 2 le_rfl).left h16 (.inr rfl)
      exact { hleft with mismatches := by show s.bus.mismatches + 1 ≤ 3; omega, driving := fun hh => by cases hh }
    · exact hbase _ (by omega)

theorem CueBus.SoundFor.slotEnded {s : State} {c : Configuration} {cy : Cycle} (h : s.bus.SoundFor c)
    (hrange : c.station < c.slots ∧ c.slots ≤ 16) (hcy : s.bus.cycle = some cy) (hlt : cy.nextSlot < c.slots)
    (heard : SlotHeard) : (s.slotEnded c.station cy heard).bus.SoundFor c := by
  have hquiet (hn : ¬ (s.bus.station = .member ∧ s.bus.sending.isSome ∧ cy.nextSlot = c.station)) :
      s.bus.txen = false := by
    refine Bool.eq_false_iff.2 fun htx => hn ?_
    obtain ⟨hm, hsend, cy', hcy', hown⟩ := h.drives htx
    obtain rfl : cy = cy' := Option.some.inj (hcy.symm.trans hcy')
    exact ⟨hm, hsend, hown⟩
  by_cases hown : cy.nextSlot = c.station
  · rw [s.slotEnded_own heard hown, State.ownSlotEnd]
    split
    · next hm _ => exact h.readBack (by omega) hlt hm _ _
    · next hnot =>
      refine h.advanced hlt (hquiet fun ⟨hm, hsend, _⟩ => ?_)
      obtain ⟨sent, hsent⟩ := Option.isSome_iff_exists.1 hsend
      exact hnot sent hm hsent
  · have hpeer : s.slotEnded c.station cy heard = (s.pastSlot cy).peerSlot c.station cy.nextSlot cy.hf heard :=
      if_neg hown
    rw [hpeer]
    refine CueBus.SoundFor.peerSlot (s := s.pastSlot cy) ?_ hown (by omega) _ _
    exact h.advanced hlt (hquiet fun hc => hown hc.2.2)

/-! ### Boundaries (R14, R16, R32) -/

/-- A cycle is opened, or none is left open, with the station not driving. -/
theorem CueBus.SoundFor.setCycle {b : CueBus} {c : Configuration} (h : b.SoundFor c) (o : Option Cycle)
    (ho : ∀ cy, o = some cy → cy.nextSlot ≤ c.slots) :
    ({ b with cycle := o, txen := false } : CueBus).SoundFor c :=
  { h with slots := ho, drives := by simp }

/-- LISTENING begins anew, or ends in SILENT(REFERENCE): the station was not MEMBER. -/
theorem CueBus.SoundFor.setIdleStation {b : CueBus} {c : Configuration} (h : b.SoundFor c)
    (hnot : b.station ≠ .member) {st : StationState} (hst : st = .listening ∨ st = .silentReference) :
    ({ b with station := st, listening := 0 } : CueBus).SoundFor c :=
  have hne : st ≠ .member ∧ st ≠ .unconfigured := by rcases hst with rfl | rfl <;> decide
  { h with
    listening := by simp
    counting := by simp
    driving := fun hm => absurd hm hne.1
    held := fun hh => absurd (h.held hh) hnot
    sending := fun hh => absurd (h.sending hh) hnot
    station := hne.2
    ownPresent := by
      have := h.ownPresent
      simp only [hnot, iff_false] at this
      simp only [hne.1, iff_false]
      exact this
    drives := fun ht => absurd (h.drives ht).1 hnot }

theorem CueBus.SoundFor.txen_of_not_member {b : CueBus} {c : Configuration} (h : b.SoundFor c)
    (hnot : b.station ≠ .member) : b.txen = false := Bool.eq_false_iff.2 fun htx => hnot (h.drives htx).1

/-- Where the station does not drive, an open cycle may give way. -/
theorem CueBus.SoundFor.endCycle {b : CueBus} {c : Configuration} (h : b.SoundFor c) (htx : b.txen = false) :
    ({ b with cycle := none } : CueBus).SoundFor c :=
  { h with slots := by simp, drives := fun ht => by simp [htx] at ht }

theorem CueBus.SoundFor.busHoldover {s : State} {c : Configuration} (h : s.bus.SoundFor c) (h16 : c.station < 16) :
    (s.busHoldover c.station).bus.SoundFor c := by
  unfold State.busHoldover
  dsimp only
  split
  · next hst =>
    have hnot : s.bus.station ≠ .member := by simp [hst]
    exact (h.endCycle (h.txen_of_not_member hnot)).setIdleStation hnot (.inr rfl)
  · dsimp only
    rw [State.leaveMember_bus]
    have hleft := (h.setCycle none (by simp)).left h16 (.inl rfl)
    exact { hleft with listening := by simp, counting := by simp }
  · next hst => exact absurd hst h.station
  · next hst => exact h.endCycle (h.txen_of_not_member (by simp [hst]))
  · next hst => exact h.endCycle (h.txen_of_not_member (by simp [hst]))

theorem CueBus.SoundFor.busLocked {s : State} {c : Configuration} (h : s.bus.SoundFor c) :
    s.busLocked.bus.SoundFor c := by
  have hopen (u : State) (hu : u.bus.SoundFor c) : u.openCycle.bus.SoundFor c :=
    hu.setCycle _ (by rintro _ ⟨⟩; exact Nat.zero_le _)
  unfold State.busLocked
  cases hst : s.bus.station with
  | unconfigured => exact absurd hst h.station
  | silentReference => exact hopen _ (h.setIdleStation (by simp [hst]) (.inl rfl))
  | listening | silentClash => exact hopen s h
  | member =>
    have hsound := hopen s h
    exact { hsound with held := by simp [State.completeBeacon], sending := fun _ => hst, drives := fun ht => by cases ht }

theorem State.BusSound.busBoundary {s : State} (h : s.BusSound) : s.busBoundary.BusSound := by
  unfold State.busBoundary
  split
  · next c hc _ =>
    obtain ⟨hb, hrange⟩ := h.soundFor hc
    have hworks : (s.busHoldover c.station).config = some c := by
      have := (Works.busBoundary s).config
      unfold State.busBoundary at this
      simp_all
    exact (hb.busHoldover (by omega)).busSound hworks hrange
  · next c hc _ =>
    obtain ⟨hb, hrange⟩ := h.soundFor hc
    have hworks : s.busLocked.config = some c := by
      have := (Works.busBoundary s).config
      unfold State.busBoundary at this
      simp_all
    exact hb.busLocked.busSound hworks hrange
  · exact h
  · exact h

/-! ### The cycle close (R31, R35) -/

theorem CueBus.SoundFor.listened {b : CueBus} {c : Configuration} (h : b.SoundFor c) (h16 : c.station < 16) :
    (b.listened c.station).SoundFor c := by
  unfold CueBus.listened
  split
  · next hl =>
    have h7 := h.counting hl
    have hquiet := h.txen_of_not_member (by simp [hl])
    split
    · exact { h with
        listening := by show b.listening + 1 ≤ 8; omega
        counting := fun hh => by cases hh
        mismatches := Nat.zero_le _
        driving := fun _ => Nat.zero_le _
        entries := h.setOwn_entries h16 (by decide)
        held := fun _ => rfl
        sending := fun _ => rfl
        station := fun hh => by cases hh
        own := by
          show ((b.setOwn c.station .present).entry c.station).Own
          rw [CueBus.setOwn_own _ h16]
          exact h.own.withState _
        ownPresent := by
          show ((b.setOwn c.station .present).entry c.station).state = _ ↔ _
          rw [CueBus.setOwn_own _ h16]
          simp [CueBus.entered]
        condition := h.condition.trans (b.setOwn_mismatched c.station .present).symm
        drives := fun ht => by
          have : b.txen = true := ht
          simp [hquiet] at this }
    · exact { h with
        listening := by show b.listening + 1 ≤ 8; omega
        counting := fun _ => by show b.listening + 1 ≤ 7; omega
        drives := fun ht => by simp [hquiet] at ht }
  · exact h

theorem State.BusSound.resolvedClose {s : State} {c : Configuration} {cy : Cycle} (h : s.BusSound)
    (hc : s.config = some c) (hcy : s.bus.cycle = some cy) (hlast : cy.nextSlot = c.slots) (hf : Frame) :
    (s.resolvedClose c hf).bus.SoundFor c := by
  obtain ⟨hb, hrange⟩ := h.soundFor hc
  have hquiet : s.bus.txen = false := by
    refine Bool.eq_false_iff.2 fun htx => ?_
    obtain ⟨-, -, cy', hcy', hown⟩ := hb.drives htx
    obtain rfl : cy = cy' := Option.some.inj (hcy.symm.trans hcy')
    omega
  exact (hb.endCycle hquiet).listened (by omega)

theorem State.BusSound.close {s : State} {c : Configuration} {cy : Cycle} (h : s.BusSound) (hc : s.config = some c)
    (hcy : s.bus.cycle = some cy) (hlast : cy.nextSlot = c.slots) (hf : Frame) : (s.close c hf).BusSound := by
  have hresolved := h.resolvedClose hc hcy hlast hf
  refine CueBus.SoundFor.busSound ?_ ((Works.close s c hf).config.trans hc) (h.soundFor hc).2
  rw [State.close_eq]
  by_cases hm : ((s.resolvedClose c hf).closeContext c hf s.bus.entersMember).station = .member
  · rw [State.publisherClose_member hm, State.closeMember_bus]
    exact { hresolved with held := fun _ => hm }
  · rw [State.publisherClose_outside hm, (Acts.closeOutside _ _).bus]
    exact hresolved

/-! ### CONFIGURE, QUERY_MIRROR and the own slot (R16, R25, R30) -/

theorem Configuration.station_lt_slots {p : List Byte} {c : Configuration} (h : decodeConfiguration p = some c) :
    c.station < c.slots ∧ c.slots ≤ 16 := by
  have hrange : c.inRange = true := by
    unfold decodeConfiguration at h
    split at h
    · dsimp only at h
      split at h
      · next hr => cases h; exact hr
      · cases h
    · cases h
  simp only [Configuration.inRange, Bool.and_eq_true, List.contains_eq_mem, decide_eq_true_eq, List.mem_cons,
    List.not_mem_nil, or_false] at hrange
  omega

theorem State.BusSound.configured_by {s : State} {p : List Byte} {c : Configuration} (h : s.BusSound)
    (hst : s.bus.station = .unconfigured) (hd : decodeConfiguration p = some c) (e : Exchange) :
    ({ s.applyConfiguration c with exchange := e } : State).BusSound := by
  have hidle : s.bus = CueBus.reset := h.idle (h.config_none hst)
  have hentry (i : Nat) : s.bus.entry i = PresenceEntry.reset := by rw [hidle, CueBus.reset_entry]
  have hfirst : s.timing.firstStation ≠ .member ∧ s.timing.firstStation ≠ .unconfigured := by
    unfold Timing.firstStation
    split <;> decide
  refine CueBus.SoundFor.busSound (c := c) ?_ rfl (Configuration.station_lt_slots hd)
  exact
    { listening := Nat.zero_le _
      counting := fun _ => Nat.zero_le _
      mismatches := h.mismatches
      driving := fun hm => absurd hm hfirst.1
      entries := h.entries
      held := by simp [State.applyConfiguration, hidle, CueBus.reset]
      sending := by simp [State.applyConfiguration, hidle, CueBus.reset]
      station := hfirst.2
      digest := rfl
      own := by
        show (s.bus.entry c.station).Own
        rw [hentry]
        rfl
      ownPresent := by
        show (s.bus.entry c.station).state = .present ↔ s.timing.firstStation = .member
        rw [hentry]
        simp [hfirst.1, PresenceEntry.reset]
      condition := by
        show s.bus.groupMismatch = s.bus.mismatched c.station
        have hfalse : s.bus.mismatched c.station = false := by
          refine Bool.eq_false_iff.2 fun hm => ?_
          obtain ⟨i, -, -, hp, -⟩ := CueBus.mismatched_iff.1 hm
          rw [hentry] at hp
          cases hp
        rw [hfalse, hidle]
        rfl
      slots := by simp [State.applyConfiguration, hidle, CueBus.reset]
      drives := by simp [State.applyConfiguration, hidle, CueBus.reset] }

/-- Clearing the counts clears them in each entry, and nothing else (R25). -/
theorem State.clearCounts_entry (s : State) (i : Nat) :
    s.clearCounts.bus.entry i = (s.bus.entry i).cleared := by
  simp only [CueBus.entry, State.clearCounts, Vector.getElem?_map]
  cases s.bus.presence[i]? <;> rfl

theorem State.BusSound.clearCounts {s : State} (h : s.BusSound) : s.clearCounts.BusSound := by
  cases hc : s.config with
  | none =>
    have hidle : s.bus = CueBus.reset := h.idle hc
    have hpresence : CueBus.reset.presence.map PresenceEntry.cleared = CueBus.reset.presence := by
      show (Vector.replicate 16 PresenceEntry.reset).map _ = _
      rw [Vector.map_replicate]
      rfl
    refine h.of_eq ?_ rfl
    show ({ s.bus with presence := s.bus.presence.map PresenceEntry.cleared } : CueBus) = s.bus
    rw [hidle, hpresence]
  | some c =>
    obtain ⟨hb, hrange⟩ := h.soundFor hc
    refine CueBus.SoundFor.busSound (c := c) ?_ hc hrange
    have hentry := s.clearCounts_entry
    exact { hb with
      entries := fun i => by
        rw [hentry]
        have he := hb.entries i
        exact ⟨he.missed, Nat.zero_le _, Nat.zero_le _, he.absent, he.flag⟩
      own := by
        rw [hentry, PresenceEntry.Own, hb.own]
        rfl
      ownPresent := by rw [hentry]; exact hb.ownPresent
      condition := hb.condition.trans (CueBus.mismatched_congr fun i _ => by rw [hentry]; exact ⟨rfl, rfl⟩).symm }

theorem State.ownSlotDue_iff {s : State} : s.ownSlotDue = true ↔ ∃ c cy sent, s.config = some c ∧
    s.bus.cycle = some cy ∧ cy.nextSlot = c.station ∧ s.bus.station = .member ∧ s.bus.sending = some sent := by
  unfold State.ownSlotDue
  split
  · next c cy hc hcy =>
    simp only [hc, hcy, Bool.and_eq_true, beq_iff_eq, Option.isSome_iff_exists, Option.some.injEq]
    constructor
    · rintro ⟨⟨hm, hown⟩, sent, hsent⟩
      exact ⟨c, cy, sent, rfl, rfl, hown, hm, hsent⟩
    · rintro ⟨_, _, sent, rfl, rfl, hown, hm, hsent⟩
      exact ⟨⟨hm, hown⟩, sent, hsent⟩
  · next hnot =>
    simp only [Bool.false_eq_true, false_iff]
    rintro ⟨c, cy, _, hc, hcy, -⟩
    exact hnot c cy hc hcy

theorem State.BusSound.driven {s : State} (h : s.BusSound) (hdue : s.ownSlotDue = true) :
    ({ s with bus := { s.bus with txen := true } } : State).BusSound := by
  obtain ⟨c, cy, sent, hc, hcy, hown, hm, hsent⟩ := State.ownSlotDue_iff.1 hdue
  obtain ⟨hb, hrange⟩ := h.soundFor hc
  refine CueBus.SoundFor.busSound (c := c) ?_ hc hrange
  exact { hb with drives := fun _ => ⟨hm, by simp [hsent], cy, hcy, hown⟩ }

theorem State.reset_busSound : State.reset.BusSound where
  listening := by decide
  counting := by decide
  mismatches := by decide
  driving := by decide
  entries i := by
    show (CueBus.reset.entry i).Sound
    rw [CueBus.reset_entry]
    exact PresenceEntry.reset_sound
  held := by decide
  sending := by decide
  configured c hc := by cases hc
  idle _ := rfl

theorem State.Moves.busSound {s t : State} (h : s.Moves t) (hs : s.BusSound) : t.BusSound := by
  cases h with
  | reset => exact State.reset_busSound.of_eq rfl rfl
  | acts e pins h => exact hs.of_eq h.bus h.config
  | timed => exact hs.of_eq rfl rfl
  | @boundary q h b o =>
    have hq : ({ s with timing := q } : State).BusSound := hs.of_eq rfl rfl
    exact hq.busBoundary.of_eq (State.issueBoundary_bus _ b o).1
      ((Works.issueBoundary _ b o).config.trans (Works.busBoundary _).config.symm)
  | slot hc hcy hlt heard =>
    obtain ⟨hb, hrange⟩ := hs.soundFor hc
    exact (hb.slotEnded hrange hcy hlt heard).busSound ((Works.slotEnded s _ _ heard).config.trans hc) hrange
  | close hc hcy hlast => exact hs.close hc hcy hlast _
  | driven h => exact hs.driven h
  | countsCleared e => exact hs.clearCounts.of_eq rfl rfl
  | configured e hst hd => exact hs.configured_by hst hd e
  | amended => exact hs.of_eq (s.amendPath_frame _ _).bus (s.amendPath_frame _ _).config
  | planned | reported => exact hs.of_eq rfl rfl

/-- Settles O19: by the moves of the commands, each operation of the Cue Bus Interface in turn. -/
theorem cueBusSoundKept : Obligations.CueBusSoundKept := fun _ _ =>
  step_keeps_of_moves (fun _ _ h => h.of_eq rfl rfl) (fun _ _ hs h => h.busSound hs)

end Sys2Proof.Machine

/-! PROOFS. The Claim Mirror and the reset state (Chapter 4, Section 1.2). -/

namespace Sys2Proof.Machine

/-! ### What a beacon that is heard tells -/

theorem decodeClaims_length {bytes : List Byte} {n : Nat} {cs : List Claim} (h : decodeClaims bytes n = some cs) :
    cs.length = n := by
  induction n generalizing cs with
  | zero => cases h; rfl
  | succ n ih =>
    unfold decodeClaims at h
    split at h
    · next hcs _ =>
      cases h
      simp [ih hcs]
    · cases h

theorem goodBeacon_claims {slot : Nat} {bytes : List Byte} {h : HeardBeacon} (hgood : goodBeacon slot bytes = some h) :
    h.claims.length ≤ 4 := by
  unfold goodBeacon at hgood
  split at hgood
  · next hcond =>
    split at hgood
    · next hcs =>
      split at hgood
      · cases hgood
        exact (decodeClaims_length hcs).trans_le hcond.2.2.2
      · cases hgood
    · cases hgood
  · cases hgood

theorem heardBeacon_claims {heard : SlotHeard} {slot : Nat} {h : HeardBeacon} (hgood : heardBeacon heard slot = some h) :
    h.claims.length ≤ 4 := by
  unfold heardBeacon at hgood
  split at hgood
  · cases hgood
  · exact goodBeacon_claims hgood

/-! ### Mirror entries under changes of the bus and the mirror (R56, R60, R62) -/

/-- A mirror entry that a station with the presence entry `p` may have. -/
structure MirrorEntry.SoundFor (e : MirrorEntry) (p : PresenceEntry) : Prop where
  four : e.claims.length ≤ 4
  heard : e.claims ≠ [] → p.state = .present

theorem State.mirrorSound_iff {s : State} :
    s.MirrorSound ↔ ∀ i, (s.mirror.entry i).SoundFor (s.bus.entry i) :=
  ⟨fun h i => ⟨h.four i, h.heard i⟩, fun h => ⟨fun i => (h i).four, fun i => (h i).heard⟩⟩

theorem MirrorEntry.reset_soundFor (p : PresenceEntry) : MirrorEntry.reset.SoundFor p :=
  ⟨Nat.zero_le _, fun h => absurd rfl h⟩

theorem MirrorEntry.written_soundFor {claims : List Claim} (hf : Frame) {p : PresenceEntry} (h4 : claims.length ≤ 4)
    (hp : p.state = .present) : (MirrorEntry.written claims hf).SoundFor p :=
  ⟨by simpa [MirrorEntry.written] using h4, fun _ => hp⟩

theorem MirrorEntry.SoundFor.of_state {e : MirrorEntry} {p q : PresenceEntry} (h : e.SoundFor p)
    (hs : p.state = .present → q.state = .present) : e.SoundFor q :=
  ⟨h.four, fun hne => hs (h.heard hne)⟩

theorem State.MirrorSound.of_states {s t : State} (h : s.MirrorSound) (hm : t.mirror = s.mirror)
    (hb : ∀ i, (s.bus.entry i).state = .present → (t.bus.entry i).state = .present) : t.MirrorSound :=
  State.mirrorSound_iff.2 fun i => by
    rw [hm]
    exact (State.mirrorSound_iff.1 h i).of_state (hb i)

theorem State.MirrorSound.of_eq {s t : State} (h : s.MirrorSound) (hb : t.bus = s.bus) (hm : t.mirror = s.mirror) :
    t.MirrorSound := h.of_states hm (fun i hp => by rwa [hb])

/-- The entry of station `i` is replaced on the bus and in the mirror; the others stay. -/
theorem State.MirrorSound.setEntry {s t : State} (h : s.MirrorSound) (i : Nat) {e : MirrorEntry} {p : PresenceEntry}
    (hm : t.mirror = s.mirror.setEntry i e) (hb : t.bus.presence = (s.bus.setEntry i p).presence)
    (he : e.SoundFor p) : t.MirrorSound := State.mirrorSound_iff.2 fun j => by
  have hentry : t.bus.entry j = (s.bus.setEntry i p).entry j := by simp only [CueBus.entry, hb]
  rw [hm, hentry, Mirror.entry_setEntry, CueBus.entry_setEntry]
  split
  · exact he
  · exact State.mirrorSound_iff.1 h j

theorem State.MirrorSound.left {s t : State} {own : Nat} {st : StationState} (h : s.MirrorSound)
    (hm : t.mirror = s.mirror.setEntry own MirrorEntry.reset) (hb : t.bus.presence = (s.bus.left own st).presence) :
    t.MirrorSound :=
  h.setEntry own hm hb (MirrorEntry.reset_soundFor _)

/-! ### Slots, boundaries and closes -/

theorem State.MirrorSound.peerSlot {s : State} (h : s.MirrorSound) (own : Nat) {i : Nat} (h16 : i < 16) (hf : Frame)
    (heard : SlotHeard) : (s.peerSlot own i hf heard).MirrorSound := by
  unfold State.peerSlot
  split
  · next heardb hgood =>
    refine h.setEntry i (State.goodSlot_mirror ..) ?_
      (MirrorEntry.written_soundFor (p := (s.bus.entry i).good s.bus.digest hf heardb) hf (heardBeacon_claims hgood) rfl)
    rw [State.goodSlot_bus]
    rfl
  · by_cases hleaves : (s.bus.entry i).leavesNow
    · rw [State.missedSlot_leaves own _ hleaves h16, State.reevaluate_spec]
      refine h.setEntry i (p := ((s.bus.entry i).miss (heardCarrier heard)).gone) rfl ?_ (MirrorEntry.reset_soundFor _)
      rw [State.post_bus]
      show (CueBus.setEntry _ _ _).presence = _
      simp [CueBus.setEntry]
    · rw [State.missedSlot_stays own _ hleaves]
      refine h.of_states rfl fun j hp => ?_
      show ((s.bus.setEntry i _).entry j).state = _
      rw [CueBus.entry_setEntry]
      split
      · next hj => rw [hj.1] at hp; exact hp
      · exact hp

theorem State.MirrorSound.readBack {s : State} (h : s.MirrorSound) (own : Nat) (sent : List Byte) (heard : SlotHeard) :
    (s.readBack own sent heard).MirrorSound := by
  unfold State.readBack
  dsimp only
  generalize (if readBackMatches own sent heard then 0 else s.bus.mismatches + 1) = count
  split
  · refine h.left (own := own) (st := .silentClash) ?_ ?_
    · rw [State.slotClash, State.raiseAlarm_mirror, State.leaveMember_mirror]
    · rw [State.slotClash_bus]
      rfl
  · exact h.of_states rfl fun _ hp => hp

theorem State.MirrorSound.slotEnded {s : State} (h : s.MirrorSound) (own : Nat) {cy : Cycle} (h16 : cy.nextSlot < 16)
    (heard : SlotHeard) : (s.slotEnded own cy heard).MirrorSound := by
  have hpast : (s.pastSlot cy).MirrorSound := h.of_states rfl fun _ hp => hp
  by_cases hown : cy.nextSlot = own
  · rw [s.slotEnded_own heard hown, State.ownSlotEnd]
    split
    · exact hpast.readBack _ _ _
    · exact hpast
  · have hpeer : s.slotEnded own cy heard = (s.pastSlot cy).peerSlot own cy.nextSlot cy.hf heard := if_neg hown
    rw [hpeer]
    exact hpast.peerSlot _ h16 _ _

theorem State.MirrorSound.busBoundary {s : State} (h : s.MirrorSound) : s.busBoundary.MirrorSound := by
  unfold State.busBoundary
  split
  · unfold State.busHoldover
    dsimp only
    split
    · exact h.of_states rfl fun _ hp => hp
    · refine h.left (st := .silentReference) (State.leaveMember_mirror ..) ?_
      show (State.leaveMember _ _ _).bus.presence = _
      rw [State.leaveMember_bus]
      rfl
    all_goals exact h.of_states rfl fun _ hp => hp
  · unfold State.busLocked
    split <;> exact h.of_states rfl fun _ hp => hp
  · exact h
  · exact h

theorem State.MirrorSound.resolvedClose {s : State} (h : s.MirrorSound) (c : Configuration) (hf : Frame) :
    (s.resolvedClose c hf).MirrorSound := State.mirrorSound_iff.2 fun i => by
  have hi := State.mirrorSound_iff.1 h i
  have hstate (hp : (s.bus.entry i).state = .present) : ((s.resolvedClose c hf).bus.entry i).state = .present := by
    show ((CueBus.listened _ _).entry i).state = _
    unfold CueBus.listened
    split
    · split
      · show ((CueBus.setEntry _ _ _).entry i).state = _
        rw [CueBus.entry_setEntry]
        split
        · rfl
        · exact hp
      · exact hp
    · exact hp
  show ((s.mirror.resolved _ hf).entry i).SoundFor _
  rw [Mirror.resolved_entry]
  exact ⟨by simpa using hi.four, fun hne => hstate (hi.heard (by simpa using hne))⟩

theorem State.MirrorSound.close {s : State} {c : Configuration} {cy : Cycle} (h : s.MirrorSound) (hbus : s.BusSound)
    (hc : s.config = some c) (hcy : s.bus.cycle = some cy) (hlast : cy.nextSlot = c.slots) (hf : Frame) :
    (s.close c hf).MirrorSound := by
  have hresolved := h.resolvedClose c hf
  rw [State.close_eq]
  by_cases hm : ((s.resolvedClose c hf).closeContext c hf s.bus.entersMember).station = .member
  · rw [State.publisherClose_member hm]
    refine State.mirrorSound_iff.2 fun i => ?_
    rw [State.closeMember_mirror, State.closeMember_bus, Mirror.entry_setEntry]
    split
    · next hi =>
      rw [hi.1]
      exact MirrorEntry.written_soundFor hf (State.claimsHandedOn_length _ _)
        ((hbus.resolvedClose hc hcy hlast hf).ownPresent.2 hm)
    · exact State.mirrorSound_iff.1 hresolved i
  · rw [State.publisherClose_outside hm]
    exact hresolved.of_eq (Acts.closeOutside _ _).bus (Acts.closeOutside _ _).mirror

/-! ### Every command -/

theorem State.reset_mirrorSound : State.reset.MirrorSound := State.mirrorSound_iff.2 fun i => by
  show (Mirror.reset.entry i).SoundFor _
  rw [Mirror.reset_entry]
  exact MirrorEntry.reset_soundFor _

theorem State.Moves.mirrorSound {s t : State} (h : s.Moves t) (hbus : s.BusSound) (hs : s.MirrorSound) :
    t.MirrorSound := by
  cases h with
  | reset => exact State.reset_mirrorSound.of_eq rfl rfl
  | acts e pins h => exact hs.of_eq h.bus h.mirror
  | @boundary q h b o =>
    have hq : ({ s with timing := q } : State).MirrorSound := hs.of_eq rfl rfl
    obtain ⟨hb, hm⟩ := State.issueBoundary_bus { s with timing := q } b o
    exact hq.busBoundary.of_eq hb hm
  | slot hc hcy hlt heard =>
    have hrange := (hbus.soundFor hc).2
    exact hs.slotEnded _ (by omega) heard
  | close hc hcy hlast => exact hs.close hbus hc hcy hlast _
  | countsCleared e =>
    refine hs.of_states rfl fun i hp => ?_
    show (s.clearCounts.bus.entry i).state = _
    rw [State.clearCounts_entry]
    exact hp
  | amended => exact hs.of_eq (s.amendPath_frame _ _).bus (s.amendPath_frame _ _).mirror
  | timed | planned | reported => exact hs.of_eq rfl rfl
  | driven | configured => exact hs.of_states rfl fun _ hp => hp

/-- Settles O4, block by block. -/
theorem resetIsSound : Obligations.ResetIsSound where
  timing := Timing.reset_sound
  reporting := Reporting.reset_sound
  table := tableSound_nil
  ring := ⟨Ring.reset_sound, rfl⟩
  bus := State.reset_busSound
  mirror := State.reset_mirrorSound

/-- Settles O20: by the moves of the commands; the soundness of the bus says that a MEMBER station, whose own entry
a close writes, is PRESENT. -/
theorem mirrorSoundKept : Obligations.MirrorSoundKept := fun s t hbus hmirror hstep => by
  have hkept : t.BusSound ∧ t.MirrorSound :=
    step_keeps_of_moves (P := fun s => s.BusSound ∧ s.MirrorSound)
      (fun _ _ h => ⟨h.1.of_eq rfl rfl, h.2.of_eq rfl rfl⟩)
      (fun _ _ hs h => ⟨h.busSound hs.1, h.mirrorSound hs.1 hs.2⟩) ⟨hbus, hmirror⟩ hstep
  exact hkept.2

end Sys2Proof.Machine

/-! PROOFS. The slots of the cue bus and the station at a frame boundary (Chapter 2). -/

namespace Sys2Proof.Machine

/-! ### The slot of a peer (R17, R22, R23, R28, R29, R58, R60) -/

theorem exec_slotEnd_peer {s : State} {c : Configuration} {cy : Cycle} (heard : SlotHeard) (hc : s.config = some c)
    (hcy : s.bus.cycle = some cy) (hlt : cy.nextSlot < c.slots) (hpeer : cy.nextSlot ≠ c.station) :
    exec (.slotEnd heard) s = .next ((s.pastSlot cy).peerSlot c.station cy.nextSlot cy.hf heard) := by
  rw [exec_slotEnd heard hc hcy hlt]
  exact congrArg _ (if_neg hpeer)

/-- The STATION_PRESENT event of a GOOD slot (R28). -/
def State.presentPosted (s : State) (i : Nat) : State :=
  if (s.bus.entry i).state = .present then s else s.post .stationPresent none 0 (detailNat i)

theorem State.pastSlot_presentPosted (s : State) (cy : Cycle) (i : Nat) :
    (s.pastSlot cy).presentPosted i = (s.presentPosted i).pastSlot cy := by
  unfold State.presentPosted
  by_cases hp : (s.bus.entry i).state = .present
  · rw [if_pos hp]
    exact if_pos hp
  · rw [if_neg hp]
    exact if_neg hp

/-- The events and alarms after a peer's GOOD slot. -/
theorem State.goodSlot_eq (s : State) (own i : Nat) (hf : Frame) (h : HeardBeacon) :
    let b := (s.bus.setEntry i ((s.bus.entry i).good s.bus.digest hf h)).reevaluated own
    s.goodSlot own i hf h = { s with
      bus := b
      mirror := s.mirror.setEntry i (MirrorEntry.written h.claims hf)
      reporting := if b.groupMismatch = true ∧ s.bus.groupMismatch = false
        then ((s.presentPosted i).raiseAlarm .groupMismatch (detailNat i) none).reporting
        else (s.presentPosted i).reporting } := by
  unfold State.goodSlot State.presentPosted
  dsimp only
  rw [State.reevaluate_spec]
  by_cases hp : (s.bus.entry i).state = .present
  · rw [if_pos hp, if_pos hp]
    rfl
  · rw [if_neg hp, if_neg hp]
    rfl

/-- Settles O14: the peer's entries are written, then the condition is evaluated. -/
theorem peerSlotGood : Obligations.PeerSlotGood := by
  intro s c cy bytes h hc hcy hlt h16 hpeer hgood
  dsimp only
  have hslot : heardBeacon (.carrier bytes) cy.nextSlot = some h := hgood
  have hentry : (s.pastSlot cy).peerSlot c.station cy.nextSlot cy.hf (.carrier bytes) =
      (s.pastSlot cy).goodSlot c.station cy.nextSlot cy.hf h := by
    rw [State.peerSlot, hslot]
  have hbound : cy.nextSlot < 16 := by omega
  rw [exec_slotEnd_peer _ hc hcy hlt hpeer, hentry, State.goodSlot_eq]
  refine ⟨_, rfl, rfl, rfl, ?_, fun j hj => ⟨?_, ?_⟩, ?_, ?_, rfl, rfl, fun hno => ?_, fun hnow hbefore => ?_⟩
  · exact CueBus.entry_setEntry_same _ _ hbound
  · exact CueBus.entry_setEntry_other _ _ hj
  · exact Mirror.entry_setEntry_other _ _ hj
  · exact congrArg _ (Mirror.entry_setEntry_same _ _ hbound)
  · exact congrArg _ (Mirror.entry_setEntry_same _ _ hbound)
  · refine (if_neg hno).trans ?_
    rw [State.pastSlot_presentPosted]
    rfl
  · refine (if_pos ⟨hnow, hbefore⟩).trans ?_
    rw [State.pastSlot_presentPosted]
    rfl

/-- A peer that has become ABSENT does not begin the condition. -/
theorem CueBus.mismatched_of_gone {b : CueBus} {own i : Nat} {e : PresenceEntry} (he : e.state = .absent)
    (h : (b.setEntry i e).mismatched own = true) : b.mismatched own = true := by
  obtain ⟨j, hj, hown, hp, hm⟩ := CueBus.mismatched_iff.1 h
  refine CueBus.mismatched_iff.2 ⟨j, hj, hown, ?_⟩
  rw [CueBus.entry_setEntry] at hp hm
  split at hp
  · rw [he] at hp
    cases hp
  · next hne => exact ⟨hp, by rwa [if_neg hne] at hm⟩

theorem CueBus.setEntry_setEntry (b : CueBus) (i : Nat) (e e' : PresenceEntry) :
    (b.setEntry i e).setEntry i e' = b.setEntry i e' := by
  simp [CueBus.setEntry]

/-- The state after the slot at which a peer becomes ABSENT, where the group mismatch condition stood as R29 has it:
the condition does not begin. -/
theorem State.missedSlot_gone {s : State} {own i : Nat} {carrier : Bool} (h : (s.bus.entry i).leavesNow) (h16 : i < 16)
    (hcond : s.bus.groupMismatch = s.bus.mismatched own) : s.missedSlot own i carrier = { s with
      bus := (s.bus.setEntry i ((s.bus.entry i).miss carrier).gone).reevaluated own
      mirror := s.mirror.setEntry i MirrorEntry.reset
      reporting := (s.post .stationAbsent none 0 (detailNat i)).reporting } := by
  rw [State.missedSlot_leaves own carrier h h16, State.reevaluate_spec, if_neg, CueBus.setEntry_setEntry]
  · rfl
  · rintro ⟨hnow, hbefore⟩
    have hgone : s.bus.mismatched own = true := by
      rw [CueBus.setEntry_setEntry] at hnow
      exact CueBus.mismatched_of_gone rfl hnow
    have hstood : s.bus.groupMismatch = false := hbefore
    rw [hcond, hgone] at hstood
    cases hstood

/-- Settles O15: the eighth missed slot of a PRESENT peer, and any other. -/
theorem peerSlotMissed : Obligations.PeerSlotMissed := by
  intro s c cy heard hc hcy hlt h16 hpeer hmissed hcond
  dsimp only
  have hbound : cy.nextSlot < 16 := by omega
  have hslot : (s.pastSlot cy).peerSlot c.station cy.nextSlot cy.hf heard =
      (s.pastSlot cy).missedSlot c.station cy.nextSlot (heardCarrier heard) := by
    rw [State.peerSlot, hmissed]
  rw [exec_slotEnd_peer heard hc hcy hlt hpeer, hslot]
  by_cases hleaves : (s.bus.entry cy.nextSlot).leavesNow
  · have hgone := State.missedSlot_gone (s := s.pastSlot cy) (carrier := heardCarrier heard) hleaves hbound hcond
    rw [hgone]
    refine ⟨_, rfl, rfl, rfl, fun j hj => ⟨?_, ?_⟩, rfl, fun hno => absurd hleaves hno, fun _ _ => ⟨?_, ?_, rfl⟩⟩
    · exact CueBus.entry_setEntry_other _ _ hj
    · exact Mirror.entry_setEntry_other _ _ hj
    · exact CueBus.entry_setEntry_same _ _ hbound
    · exact Mirror.entry_setEntry_same _ _ hbound
  · rw [State.missedSlot_stays (s := s.pastSlot cy) _ _ hleaves]
    refine ⟨_, rfl, rfl, rfl, fun j hj => ⟨?_, rfl⟩, ?_, fun _ => ⟨?_, rfl, rfl⟩, fun hp h7 => absurd ⟨hp, h7⟩ hleaves⟩
    · exact CueBus.entry_setEntry_other _ _ hj
    · exact hcond.trans (CueBus.setEntry_miss_mismatched _ _ _ _).symm
    · exact CueBus.entry_setEntry_same _ _ hbound

/-! ### The own slot (R16, R19, R20, R24, R62) -/

theorem exec_ownSlotStart (s : State) : exec .ownSlotStart s =
    if s.ownSlotDue = true then .next { s with bus := { s.bus with txen := true } } else .next s := rfl

theorem readBackMatches_iff {own : Nat} {sent : List Byte} {heard : SlotHeard} :
    readBackMatches own sent heard = true ↔ heard = .carrier sent ∧ (goodBeacon own sent).isSome = true := by
  cases heard with
  | noCarrier => simp [readBackMatches]
  | carrier bytes =>
    simp only [readBackMatches, Bool.and_eq_true, beq_iff_eq, SlotHeard.carrier.injEq]
    constructor
    · rintro ⟨hgood, rfl⟩
      exact ⟨rfl, hgood⟩
    · rintro ⟨rfl, hgood⟩
      exact ⟨hgood, rfl⟩

/-- What the publisher keeps of a station that has left MEMBER. -/
theorem State.leaveMember_publisher (s : State) (own : Nat) (st : StationState) :
    (s.leaveMember own st).publisher.lastChoice = [] ∧ (s.leaveMember own st).publisher.memberCloses = 0 :=
  ⟨rfl, rfl⟩

/-- The third mismatch in a row silences the station and raises SLOT_CLASH with its number (R20). -/
theorem State.slotClash_spec (s : State) (own : Nat) :
    s.SameAround (s.slotClash own) ∧ (s.slotClash own).timing = s.timing ∧
    (s.slotClash own).bus = s.bus.left own .silentClash ∧
    (s.slotClash own).mirror = s.mirror.setEntry own MirrorEntry.reset ∧
    (s.slotClash own).publisher.lastChoice = [] ∧ (s.slotClash own).publisher.memberCloses = 0 ∧
    ((s.slotClash own).reporting.alarms.get .slotClash).flag = true ∧
    ((s.slotClash own).reporting.alarms.get .slotClash).detail = some (detailNat own) := by
  have hworks := Works.slotClash s own
  refine ⟨hworks.sameAround, hworks.timing, s.slotClash_bus own, ?_, rfl, rfl, ?_, ?_⟩
  · rw [State.slotClash, State.raiseAlarm_mirror, State.leaveMember_mirror]
  · rw [State.slotClash, State.raiseAlarm_get _ _ _ (by decide)]
    rfl
  · rw [State.slotClash, State.raiseAlarm_get _ _ _ (by decide)]
    rfl

/-- Settles O16: the own slot of a MEMBER station, by what its read-back finds. -/
theorem ownSlotDrivenAndReadBack : Obligations.OwnSlotDrivenAndReadBack := by
  refine ⟨fun s => ⟨fun hdue => ?_, fun hdue => ?_⟩, fun s c cy sent heard hc hcy hlt h16 hown hm hsent => ?_⟩
  · rw [exec_ownSlotStart, if_pos (State.ownSlotDue_iff.2 hdue)]
  · rw [exec_ownSlotStart, if_neg (mt State.ownSlotDue_iff.1 hdue)]
  · have hslot : exec (.slotEnd heard) s = .next ((s.pastSlot cy).readBack c.station sent heard) := by
      rw [exec_slotEnd heard hc hcy hlt, State.slotEnded_own s heard hown, State.ownSlotEnd]
      simp only [State.pastSlot, hm, hsent]
    rw [hslot]
    dsimp only
    rw [← readBackMatches_iff (own := c.station)]
    refine ⟨fun hgood => ?_, fun hbad h2 => ?_, fun hbad h2 => ?_⟩
    · simp [State.readBack, hgood, State.pastSlot]
    · have h3 : ¬ 3 ≤ s.bus.mismatches + 1 := by omega
      simp [State.readBack, hbad, State.pastSlot, h3]
    · have h3 : 3 ≤ s.bus.mismatches + 1 := by omega
      refine ⟨_, rfl, ?_⟩
      simp only [State.readBack, hbad, State.pastSlot, Bool.false_eq_true, if_false, h3, if_true]
      obtain ⟨haround, htiming, hbus, hmirror, hchoice, hcloses, hflag, hdetail⟩ := State.slotClash_spec
        { s with bus := { s.bus with
          cycle := some { cy with nextSlot := cy.nextSlot + 1 }, txen := false, sending := none
          mismatches := s.bus.mismatches + 1 } } c.station
      refine ⟨⟨haround.config, haround.exchange, haround.markerPins, haround.pending⟩, htiming, ?_, ?_,
        fun j hj => ⟨?_, ?_⟩, ?_, hchoice, hcloses, hflag, hdetail⟩
      · rw [hbus]
        rfl
      · rw [hbus]
        exact congrArg PresenceEntry.state (CueBus.setOwn_own _ (by omega))
      · rw [hbus]
        exact CueBus.setOwn_other _ hj
      · rw [hmirror]
        exact Mirror.entry_setEntry_other _ _ hj
      · rw [hmirror]
        exact Mirror.entry_setEntry_same _ _ (by omega)

/-! ### The station at a frame boundary (R14, R16, R32) -/

/-- A boundary in LOCKED opens a cycle of its frame, timed from its basis. -/
theorem State.busLocked_bus {s : State} {p : Nat} (hp : s.timing.period = some p) :
    let cy : Cycle := { hf := s.timing.hf, basis := s.timing.basis, period := p, nextSlot := 0 }
    (s.bus.station = .listening ∨ s.bus.station = .silentClash →
      s.busLocked.bus = { s.bus with cycle := some cy, txen := false }) ∧
    (s.bus.station = .silentReference →
      s.busLocked.bus = { s.bus with cycle := some cy, txen := false, station := .listening, listening := 0 }) ∧
    (s.bus.station = .member → s.busLocked.bus = { s.bus with
      cycle := some cy, txen := false, held := none, sending := s.bus.held.map (fun b => b.encode s.timing.hf) }) := by
  refine ⟨?_, ?_, ?_⟩
  · rintro (h | h) <;> simp [State.busLocked, h, State.openCycle, hp]
  · intro h
    simp [State.busLocked, h, State.openCycle, hp]
  · intro h
    simp [State.busLocked, h, State.openCycle, State.completeBeacon, hp]

/-- A boundary in HOLDOVER opens none, and silences LISTENING and MEMBER. -/
theorem State.busHoldover_bus (s : State) {own : Nat} (h16 : own < 16) :
    (s.bus.station = .listening →
      (s.busHoldover own).bus = { s.bus with cycle := none, station := .silentReference, listening := 0 }) ∧
    (s.bus.station = .silentReference ∨ s.bus.station = .silentClash →
      (s.busHoldover own).bus = { s.bus with cycle := none }) ∧
    (s.bus.station = .member →
      (s.busHoldover own).bus = { s.bus with
        cycle := none, station := .silentReference, listening := 0, held := none, sending := none,
        txen := false, presence := (s.busHoldover own).bus.presence } ∧
      ((s.busHoldover own).bus.entry own).state = .empty) := by
  refine ⟨?_, ?_, ?_⟩
  · intro h
    simp [State.busHoldover, h]
  · rintro (h | h) <;> simp [State.busHoldover, h]
  · intro h
    have hbus : (s.busHoldover own).bus =
        { ({ s.bus with cycle := none } : CueBus).left own .silentReference with listening := 0 } := by
      simp only [State.busHoldover, h]
      rw [State.leaveMember_bus]
    rw [hbus]
    exact ⟨rfl, congrArg PresenceEntry.state (CueBus.setOwn_own _ h16)⟩

/-- The bus after a boundary that carries LOCKED. -/
theorem State.issueBoundary_opens {s : State} {c : Configuration} {p : Nat} (b : Boundary) (o : BoundaryOrder)
    (hc : s.config = some c) (hl : s.timing.refState = .locked) (hp : s.timing.period = some p) :
    let cy : Cycle := { hf := s.timing.hf, basis := s.timing.basis, period := p, nextSlot := 0 }
    let t := s.issueBoundary b o
    t.timing.hf = s.timing.hf ∧
      (s.bus.station = .listening ∨ s.bus.station = .silentClash →
        t.bus = { s.bus with cycle := some cy, txen := false }) ∧
      (s.bus.station = .silentReference →
        t.bus = { s.bus with cycle := some cy, txen := false, station := .listening, listening := 0 }) ∧
      (s.bus.station = .member → t.bus = { s.bus with
        cycle := some cy, txen := false, held := none
        sending := s.bus.held.map (fun b => b.encode s.timing.hf) }) := by
  have hbus : (s.issueBoundary b o).bus = s.busLocked.bus := by
    rw [(State.issueBoundary_bus s b o).1, State.busBoundary, hc, hl]
  dsimp only
  rw [hbus]
  exact ⟨congrArg Timing.hf (Works.issueBoundary _ b o).timing, State.busLocked_bus hp⟩

/-- The bus after a boundary that carries HOLDOVER, issued once the timing unit has moved. -/
theorem State.issueBoundary_silences {s u t : State} {c : Configuration} {b : Boundary} {o : BoundaryOrder}
    (ht : t = u.issueBoundary b o) (hu : u.bus = s.bus) (hc : u.config = some c) (h16 : c.station < 16)
    (hl : u.timing.refState = .holdover) :
    (s.bus.station = .listening →
      t.bus = { s.bus with cycle := none, station := .silentReference, listening := 0 }) ∧
    (s.bus.station = .silentReference ∨ s.bus.station = .silentClash → t.bus = { s.bus with cycle := none }) ∧
    (s.bus.station = .member →
      t.bus = { s.bus with
        cycle := none, station := .silentReference, listening := 0, held := none, sending := none
        txen := false, presence := t.bus.presence } ∧
      (t.bus.entry c.station).state = .empty) := by
  have hbus : t.bus = (u.busHoldover c.station).bus := by
    rw [ht, (State.issueBoundary_bus u b o).1, State.busBoundary, hc, hl]
  rw [hbus, ← hu]
  exact u.busHoldover_bus h16

/-- Settles O18: each boundary by the reference state it carries. -/
theorem boundaryMovesStation : Obligations.BoundaryMovesStation := by
  intro s c o hc h16
  dsimp only
  have hopens (q : Timing) (b : Boundary) {p : Nat} (hl : q.refState = .locked) (hp : q.period = some p) :=
    State.issueBoundary_opens (s := { s with timing := q }) b o hc hl hp
  refine ⟨fun p hl hp => ⟨fun m hw => ?_, fun h0 => ?_, fun h0 => ?_⟩, fun m p v hl hlocks => ?_,
    fun due p hl hd hp => ?_⟩
  · rw [exec_referencePulse_inside o hl hp hw]
    exact ⟨_, rfl, hopens _ _ hl hp⟩
  · rw [exec_windowClose_locked o hl hp, if_pos h0]
    exact ⟨_, rfl, hopens _ _ hl hp⟩
  · rw [exec_windowClose_locked o hl hp, if_neg h0]
    exact ⟨_, rfl, State.issueBoundary_silences rfl rfl hc h16 rfl⟩
  · rw [exec_referencePulse_run m o hl]
    by_cases hh : s.timing.refState = .holdover
    · rw [State.runPulse_relock o hlocks hh, hlocks.lockAt]
      exact ⟨_, rfl, hopens _ _ rfl rfl⟩
    · rw [State.runPulse_lock o hlocks hh, hlocks.lockAt]
      exact ⟨_, rfl, hopens _ _ rfl rfl⟩
  · rw [exec_freeRunExpiry o hl hd hp]
    exact ⟨_, rfl, State.issueBoundary_silences rfl rfl hc h16 hl⟩

end Sys2Proof.Machine

/-! PROOFS. What a run of endings makes of the part (R40, R52, R53, R98). -/

namespace Sys2Proof.Machine

/-! ### The entries and slots of a junction whose fetch is dropped (R161, R176) -/

theorem State.dropFetch_entries (s : State) (n : JunctionNumber) :
    (s.dropFetch n).engine.entries = s.engine.entries.filter (fun e => e.junction != n) :=
  State.orphanWhere_entries _ _

/-- An ending leaves the entries of the other junctions, each at most begun on one more frame. -/
theorem State.endRecord_entries {s : State} {n : JunctionNumber} {r : Junction} (e : Ending)
    (h : s.junction? n = some r) {x : FetchEntry} (hx : x ∈ (s.endRecord n e).engine.entries) :
    x.junction ≠ n ∧ ∃ y ∈ s.engine.entries, y.junction = x.junction := by
  unfold State.endRecord at hx
  rw [h] at hx
  obtain ⟨y, hy, hjunction, -⟩ := State.beginFrame_entries hx
  have hdropped : y ∈ s.engine.entries.filter (fun e => e.junction != n) := by
    rw [State.postEnd, State.post_engine, State.dropFetch_entries] at hy
    exact hy
  obtain ⟨hmem, hne⟩ := List.mem_filter.1 hdropped
  exact ⟨fun heq => by simp [hjunction, heq] at hne, y, hmem, hjunction⟩

/-! ### A run of endings -/

/-- The listed records end, in that order, each with its own ending. -/
def State.endEach (s : State) (e : Junction → Ending) : List Junction → State
  | [] => s
  | r :: rs => (s.endRecord r.number (e r)).endEach e rs

theorem State.endRecords_eq (s : State) (e : Ending) (gone : List Junction) :
    s.endRecords e (gone.map (·.number)) = s.endEach (fun _ => e) gone := by
  induction gone generalizing s with
  | nil => rfl
  | cons r gone ih => exact ih _

theorem State.jumpEnd_eq (s : State) (gone : List Junction) :
    s.jumpEnd gone = s.endEach (fun r => jumpEnding r.state) gone := by
  induction gone generalizing s with
  | nil => rfl
  | cons r gone ih => exact ih _

/-- What the events say of themselves, their sequence numbers and frames aside. -/
def Event.told (e : Event) : EventKind × Option JunctionNumber × BitVec 24 × BitVec 24 :=
  (e.kind, e.junction, e.code, e.value)

/-- `t` is `s` once the records of `gone` have ended. -/
structure State.Ended (s : State) (e : Junction → Ending) (gone : List Junction) (t : State) : Prop where
  rest : t = { s with
    table := t.table, publisher := t.publisher, engine := t.engine, ring := t.ring, reporting := t.reporting }
  table : t.table = s.table.filter (fun r => gone.all (fun g => g.number != r.number))
  publisher : t.publisher = { s.publisher with
    claims := s.publisher.claims.filter (fun k => gone.all (fun g => g.number != k.junction)) }
  entries : ∀ x ∈ t.engine.entries,
    (∀ g ∈ gone, x.junction ≠ g.number) ∧ ∃ y ∈ s.engine.entries, y.junction = x.junction
  events : s.reporting.events.length + gone.length ≤ 32 →
    t.reporting.events.map Event.told = s.reporting.events.map Event.told ++
      gone.map (fun r => (.junctionEnd, some r.number, (e r).code, r.actualFirst.getD (r.fields.commitFrame s.lead)))

theorem Junction.endValue_eq (r : Junction) (lead : Nat) :
    r.endValue lead = r.actualFirst.getD (r.fields.commitFrame lead) := by
  unfold Junction.endValue
  cases r.actualFirst <;> rfl

/-- One ending. -/
theorem State.endRecord_ended {s : State} {r : Junction} (e : Junction → Ending)
    (h : s.junction? r.number = some r) : s.Ended e [r] (s.endRecord r.number (e r)) := by
  have hspec := State.endRecord_spec (e r) h
  have hentries {x : FetchEntry} (hx : x ∈ (s.endRecord r.number (e r)).engine.entries) :=
    State.endRecord_entries (e r) h hx
  generalize s.endRecord r.number (e r) = t at hspec hentries
  refine ⟨by rw [hspec], ?_, ?_, fun x hx => ⟨?_, (hentries hx).2⟩, fun hroom => ?_⟩
  · rw [hspec]
    simp [removeNumber, bne_comm]
  · rw [hspec]
    simp [State.dropClaims, bne_comm]
  · simpa using (hentries hx).1
  · have hlt : s.reporting.events.length < eventCapacity := hroom
    rw [hspec]
    show (s.reporting.post s.hf .junctionEnd (some r.number) (e r).code (r.endValue s.lead)).events.map _ = _
    rw [Reporting.post_room hlt, Junction.endValue_eq]
    simp [Event.told]

theorem State.Ended.junction? {s t : State} {e : Junction → Ending} {gone : List Junction} (h : s.Ended e gone t)
    {n : JunctionNumber} (hn : ∀ g ∈ gone, g.number ≠ n) : t.junction? n = s.junction? n := by
  unfold State.junction?
  rw [h.table]
  refine find?_filter_of_imp _ _ _ fun r hr => ?_
  have hrn : r.number = n := by simpa using hr
  simpa [hrn] using hn

/-- Endings one after the other. -/
theorem State.Ended.append {s u t : State} {e : Junction → Ending} {gone more : List Junction}
    (h : s.Ended e gone u) (g : u.Ended e more t) : s.Ended e (gone ++ more) t := by
  have hlead : u.lead = s.lead := by rw [h.rest]; rfl
  refine ⟨?_, ?_, ?_, fun x hx => ?_, fun hroom => ?_⟩
  · rw [g.rest, h.rest]
  · rw [g.table, h.table, List.filter_filter]
    simp [List.all_append, Bool.and_comm]
  · rw [g.publisher, h.publisher]
    simp [List.filter_filter, List.all_append, Bool.and_comm]
  · obtain ⟨hmore, y, hy, hyx⟩ := g.entries x hx
    obtain ⟨hgone, z, hz, hzy⟩ := h.entries y hy
    refine ⟨fun r hr => ?_, z, hz, hzy.trans hyx⟩
    rcases List.mem_append.1 hr with hr | hr
    · exact hyx ▸ hgone r hr
    · exact hmore r hr
  · rw [List.length_append] at hroom
    have hfirst := h.events (by omega)
    have hlen : u.reporting.events.length = s.reporting.events.length + gone.length := by
      simpa using congrArg List.length hfirst
    rw [g.events (by omega), hfirst, hlead, List.map_append, List.append_assoc]

/-- A run of endings of records with distinct numbers. -/
theorem State.endEach_ended {s : State} (e : Junction → Ending) {gone : List Junction}
    (hall : ∀ r ∈ gone, s.junction? r.number = some r) (hnodup : (gone.map (·.number)).Nodup) :
    s.Ended e gone (s.endEach e gone) := by
  induction gone generalizing s with
  | nil => exact ⟨rfl, by simp [State.endEach], by simp [State.endEach], fun x hx => ⟨by simp, x, hx, rfl⟩,
      by simp [State.endEach]⟩
  | cons r gone ih =>
    obtain ⟨hr, hnodup⟩ := List.nodup_cons.1 hnodup
    have hfirst := State.endRecord_ended e (hall r List.mem_cons_self)
    refine hfirst.append (ih (fun g hg => ?_) hnodup)
    rw [hfirst.junction? fun _ hmem heq => ?_]
    · exact hall g (List.mem_cons_of_mem _ hg)
    · obtain rfl := List.mem_singleton.1 hmem
      exact hr (List.mem_map.2 ⟨g, hg, heq.symm⟩)

/-- A record of a table with distinct numbers is the one that its number finds. -/
theorem State.junction?_of_mem {s : State} {r : Junction} (hnodup : (s.table.map (·.number)).Nodup)
    (hr : r ∈ s.table) : s.junction? r.number = some r := by
  cases h : s.junction? r.number with
  | none => exact absurd rfl (State.junction?_eq_none_iff.1 h r hr)
  | some r' =>
    obtain ⟨hmem, hnumber⟩ := State.junction?_mem h
    rw [List.inj_on_of_nodup_map hnodup hmem hr hnumber]

/-- The records that `gone` picks end: the others stay, and their claims. -/
theorem State.endEach_filter {s : State} (e : Junction → Ending) (gone : Junction → Bool)
    (hnodup : (s.table.map (·.number)).Nodup) :
    s.Ended e (s.table.filter gone) (s.endEach e (s.table.filter gone)) ∧
      (s.endEach e (s.table.filter gone)).table = s.table.filter (fun r => !gone r) := by
  have hsub : (s.table.filter gone).Sublist s.table := List.filter_sublist
  have hended := State.endEach_ended e (fun r hr => State.junction?_of_mem hnodup (hsub.subset hr))
    (hnodup.sublist (hsub.map _))
  refine ⟨hended, hended.table.trans (List.filter_congr fun r hr => ?_)⟩
  rw [Bool.eq_iff_iff]
  simp only [List.all_eq_true, bne_iff_ne, ne_eq, List.mem_filter, Bool.not_eq_true']
  constructor
  · intro h
    exact Bool.eq_false_iff.2 fun hg => h r ⟨hr, hg⟩ rfl
  · rintro hg x ⟨hx, hxg⟩ heq
    rw [List.inj_on_of_nodup_map hnodup hx hr heq] at hxg
    simp [hxg] at hg

end Sys2Proof.Machine

/-! PROOFS. Frame boundaries and the blocks that they reach (Chapter 1). -/

namespace Sys2Proof.Machine

/-- The events of a run of endings without their values. -/
theorem State.Ended.coded {s t : State} {e : Junction → Ending} {gone : List Junction} (h : s.Ended e gone t)
    (hroom : s.reporting.events.length + gone.length ≤ 32) :
    t.reporting.events.map (fun e => (e.kind, e.junction, e.code)) =
      s.reporting.events.map (fun e => (e.kind, e.junction, e.code)) ++
        gone.map (fun r => (.junctionEnd, some r.number, (e r).code)) := by
  have hvalueless := congrArg (List.map fun p => (p.1, p.2.1, p.2.2.1)) (h.events hroom)
  rw [List.map_append, List.map_map, List.map_map, List.map_map] at hvalueless
  exact hvalueless

theorem jumpEnding_code (st : RecordState) :
    (jumpEnding st).code = detailBytes (if st = .primed then 4 else 3) 7 0 := by
  unfold jumpEnding
  split <;> rfl

/-- The Junction Table at a boundary that carries a time jump (R53). -/
theorem State.jumpEndings_ended {s : State} (hnodup : (s.table.map (·.number)).Nodup) :
    s.Ended (fun r => jumpEnding r.state) (s.table.filter s.missedCommit) s.jumpEndings ∧
      s.jumpEndings.table = s.table.filter (fun r => !s.missedCommit r) := by
  rw [State.jumpEndings, State.jumpEnd_eq]
  exact State.endEach_filter _ _ hnodup

/-- The declines of a station that is silent (R98, R99). -/
theorem State.declineSilent_ended {s : State} (hf : Frame) (p : RecordState → Bool)
    (hnodup : (s.table.map (·.number)).Nodup) :
    let gone := fun (r : Junction) => p r.state && s.commitReached hf r
    s.Ended (fun _ => { outcome := .declined, reason := some .silent }) (s.table.filter gone) (s.declineSilent hf p) ∧
      (s.declineSilent hf p).table = s.table.filter (fun r => !gone r) := by
  dsimp only
  rw [State.declineSilent, State.numbersWhere, State.endRecords_eq]
  exact State.endEach_filter _ _ hnodup

theorem State.declineDue_iff {s : State} {b : Boundary} :
    s.declineDue b = true ↔ s.config.isSome = true ∧ (s.timing.refState = .holdover ∨ b.relock = true) := by
  simp [State.declineDue]

/-- The operations of a boundary but for the endings, whose effects are stated by themselves. -/
theorem State.boundaryOp_blocks (s : State) (b : Boundary) (x : StartContext) :
    s.boundaryOp b x .cueBus = s.busBoundary ∧
    s.boundaryOp b x .markers = s.markersBoundary x b.ended b.jump ∧
    s.boundaryOp b x .sequencer = s.sequencerBoundary x ∧
    s.boundaryOp b x .ring = s.ringAdvance ∧
    s.boundaryOp b x .layoutLoad = s.loadAtFrame ∧
    (b.loss = true → s.boundaryOp b x .referenceLost = s.raiseAlarm .referenceLost 0 none) ∧
    (b.loss = false → s.boundaryOp b x .referenceLost = s) ∧
    (b.jump = none → s.boundaryOp b x .jumpEndings = s) ∧
    (s.config = none ∨ s.timing.refState ≠ .holdover ∧ b.relock = false → s.boundaryOp b x .decline = s) := by
  refine ⟨rfl, rfl, rfl, rfl, rfl, fun h => if_pos h, fun h => if_neg (by simp [h]), fun h => if_neg (by simp [h]),
    fun h => if_neg ?_⟩
  rw [State.declineDue_iff]
  rintro ⟨hc, hstate⟩
  rcases h with h | ⟨hn, hr⟩
  · simp [h] at hc
  · simp [hn, hr] at hstate

/-- Settles O12: the schedule of a boundary, its operations, and the boundary of each timing command. -/
theorem boundaryReachesEveryBlockOnce : Obligations.BoundaryReachesEveryBlockOnce := by
  refine ⟨fun s b o => ⟨schedule_perm o, schedule_prefix, rfl, (Works.issueBoundary s b o).sameAround,
      (Works.issueBoundary s b o).timing, fun old new hj => ?_⟩,
    fun s b first op rest => ⟨rfl, rfl⟩, State.boundaryOp_blocks, fun s b x hnodup => ⟨fun hj => ?_, fun hc hd => ?_⟩,
    fun s o => ⟨fun p hl hp => ⟨fun m hw => ?_, fun h0 => ?_, fun h0 => ?_⟩, fun m p v hlocks => ⟨fun hs => ?_, fun hs => ?_⟩,
      fun due p hh hd hp => ?_⟩⟩
  · exact State.issueBoundary_jumpPosted o hj
  · have hop : s.boundaryOp b x .jumpEndings = s.jumpEndings := if_pos hj
    obtain ⟨hended, htable⟩ := State.jumpEndings_ended hnodup
    rw [hop]
    refine ⟨htable, fun hroom => (hended.coded hroom).trans ?_⟩
    simp only [jumpEnding_code]
    rfl
  · have hop : s.boundaryOp b x .decline = s.declineSilent s.hf RecordState.isUncommitted :=
      if_pos (State.declineDue_iff.2 ⟨hc, hd⟩)
    obtain ⟨hended, htable⟩ := State.declineSilent_ended s.hf RecordState.isUncommitted hnodup
    rw [hop]
    exact ⟨htable, fun hroom => (hended.coded hroom)⟩
  · rw [exec_referencePulse_inside o hl hp hw]
    exact ⟨_, rfl⟩
  · rw [exec_windowClose_locked o hl hp, if_pos h0]
    exact ⟨_, rfl⟩
  · rw [exec_windowClose_locked o hl hp, if_neg h0]
    exact ⟨_, rfl⟩
  · rw [exec_referencePulse_run m o (by simp [hs]), State.runPulse_lock o hlocks (by simp [hs])]
    exact ⟨_, rfl⟩
  · rw [exec_referencePulse_run m o (by simp [hs]), State.runPulse_relock o hlocks hs]
    exact ⟨_, rfl⟩
  · rw [exec_freeRunExpiry o hh hd hp]
    exact ⟨_, rfl⟩

end Sys2Proof.Machine

/-! PROOFS. Order frames: what an order meets before its own rules, and what it does once it is taken (Section 10). -/

namespace Sys2Proof.Machine

/-! ### Order kinds (R177, R178) -/

/-- The test of a payload's length that each kind's frame meets. -/
def OrderKind.fits : OrderKind → List Byte → Bool
  | .configure, p => p.length == 24
  | .plan, p => fieldSetFits p
  | .amend, p => fieldSetFits p
  | .cancel, p => p.length == 2
  | .withdrawAll, p => p.isEmpty
  | .layout, p => p.length == 18
  | .resumeFetch, p => p.isEmpty
  | .queryStatus, p => p.isEmpty
  | .queryJunction, p => p.length == 2
  | .queryMirror, p => p.length == 1
  | .readEvents, p => p.length == 1
  | .clearAlarm, p => p.length == 2

/-- The own rules of each kind. -/
def OrderKind.run : OrderKind → List Byte → State → Answer
  | .configure, p => fun s => s.configure p
  | .plan, p => fun s => s.plan p
  | .amend, p => fun s => s.amend p
  | .cancel, p => fun s => s.cancel (payloadNumber p)
  | .withdrawAll, _ => State.withdrawAll
  | .layout, p => fun s => s.layoutOrder p
  | .resumeFetch, _ => State.resumeOrder
  | .queryStatus, _ => fun s => s.accept s.statusReport
  | .queryJunction, p => fun s => s.queryJunction (payloadNumber p)
  | .queryMirror, p => fun s => s.queryMirror (num1 p 0)
  | .readEvents, p => fun s => s.readEvents (num1 p 0)
  | .clearAlarm, p => fun s => s.clearAlarm (num1 p 0) (byte1 (num1 p 1))

theorem exec_command (k : OrderKind) (p : List Byte) (crc : Half) (s : State) :
    exec (k.command p crc) s = .next (s.takeOrder k.code p crc (k.fits p) (k.run p)) := by
  cases k <;> rfl

theorem OrderKind.fits_iff {k : OrderKind} {p : List Byte} : k.fits p = true ↔ k.Fits p := by
  cases k with
  | plan | amend => simp [OrderKind.fits, OrderKind.Fits, fieldSetFits]
  | withdrawAll | resumeFetch | queryStatus => simp [OrderKind.fits, OrderKind.Fits]
  | configure | cancel | layout | queryJunction | queryMirror | readEvents | clearAlarm => exact beq_iff_eq

theorem exec_taken {s : State} {k : OrderKind} {p : List Byte} {crc : Half} (h : s.Takes k p crc) :
    exec (k.command p crc) s = .next (k.run p s).sent := by
  rw [exec_command, State.takeOrder_taken h.reading h.check (OrderKind.fits_iff.2 h.fits)]

/-- What an order frame meets before its own rules. -/
theorem State.takeOrder_checks (s : State) (code : Byte) (p : List Byte) (crc : Half) (fits : Bool)
    (run : State → Answer) :
    (s.exchange ≠ .reading → s.takeOrder code p crc fits run = s) ∧
    (s.exchange = .reading → crc ≠ orderCrc code p → s.takeOrder code p crc fits run = s.replied .checkError []) ∧
    (s.exchange = .reading → crc = orderCrc code p → fits = false →
      s.takeOrder code p crc fits run = s.replied .refusedFormat []) := by
  refine ⟨fun h => if_neg h, fun h hcrc => ?_, fun h hcrc hfits => ?_⟩
  · rw [State.takeOrder, if_pos h, if_pos hcrc]
    rfl
  · rw [State.takeOrder, if_pos h, if_neg (not_ne_iff.2 hcrc), if_neg (by simp [hfits])]
    rfl

/-- Settles O30, by the checks that every frame meets. -/
theorem orderFrameChecked : Obligations.OrderFrameChecked := by
  refine ⟨fun s => ⟨fun h => ?_, fun h => ?_, rfl, rfl, fun _ => rfl⟩, fun k p crc s => ?_, fun code p crc s hread => ?_⟩
  · have hdispatch : exec .oselAsserted s = execOselAsserted s := rfl
    rw [hdispatch, execOselAsserted, h]
  · have hdispatch : exec .oselAsserted s = execOselAsserted s := rfl
    rw [hdispatch, execOselAsserted]
    cases he : s.exchange with
    | idle => exact absurd he h
    | reading | replying r => rfl
  · obtain ⟨hout, hcheck, hlength⟩ := s.takeOrder_checks k.code p crc (k.fits p) (k.run p)
    rw [exec_command]
    exact ⟨fun h => congrArg _ (hout h), fun h hcrc => congrArg _ (hcheck h hcrc), fun h hcrc hfits =>
      congrArg _ (hlength h hcrc (Bool.eq_false_iff.2 (mt OrderKind.fits_iff.1 hfits)))⟩
  · obtain ⟨-, hcheck, hlength⟩ := s.takeOrder_checks code p crc false (fun s => s.refuse .refusedFormat)
    exact ⟨fun hcrc => congrArg Host.Outcome.next (hcheck hread hcrc), fun hcrc =>
      congrArg Host.Outcome.next (hlength hread hcrc rfl)⟩

/-! ### Orders that are not accepted -/

/-- An answer accepts the order, or the part is as it was. -/
def Answer.Sound (a : Answer) (s : State) : Prop := a.reply.status = .accepted ∨ a.state = s

theorem State.accept_sound (s t : State) (p : List Byte) : (t.accept p).Sound s := .inl rfl

theorem State.refuse_sound (s : State) (st : Status) : (s.refuse st).Sound s := .inr rfl

theorem State.amendPath_sound (s : State) (r : Junction) (f : FieldSet) : (s.amendPath r f).Sound s := by
  unfold State.amendPath
  cases r.state with
  | planned => exact .inl rfl
  | opened =>
    dsimp only
    split <;> exact .inl rfl
  | locked =>
    dsimp only
    split
    · exact .inl rfl
    · unfold State.amendPending
      dsimp only
      split
      · exact .inl rfl
      · split
        · exact .inl rfl
        · exact s.refuse_sound _
  | primed | squeezeIn | hold | release => exact s.refuse_sound _

theorem State.configure_sound (s : State) (p : List Byte) : (s.configure p).Sound s := by
  unfold State.configure
  split
  · exact s.refuse_sound _
  · split
    · exact s.accept_sound _ _
    · exact s.refuse_sound _

theorem State.plan_sound (s : State) (p : List Byte) : (s.plan p).Sound s := by
  unfold State.plan
  dsimp only
  split
  · exact s.refuse_sound _
  · split
    · exact s.refuse_sound _
    · split
      · exact s.refuse_sound _
      · split
        · exact s.refuse_sound _
        · split
          · exact s.refuse_sound _
          · exact s.accept_sound _ _

theorem State.amend_sound (s : State) (p : List Byte) : (s.amend p).Sound s := by
  unfold State.amend
  dsimp only
  split
  · exact s.refuse_sound _
  · split
    · exact s.refuse_sound _
    · split
      · exact s.refuse_sound _
      · split
        · exact s.refuse_sound _
        · split
          · exact s.refuse_sound _
          · exact s.amendPath_sound _ _

theorem State.cancel_sound (s : State) (n : JunctionNumber) : (s.cancel n).Sound s := by
  unfold State.cancel
  split
  · exact s.refuse_sound _
  · split <;> exact s.accept_sound _ _

theorem State.layoutOrder_sound (s : State) (p : List Byte) : (s.layoutOrder p).Sound s := by
  unfold State.layoutOrder
  dsimp only
  split
  · exact s.refuse_sound _
  · split
    · exact s.accept_sound _ _
    · exact s.refuse_sound _

theorem State.resumeOrder_sound (s : State) : s.resumeOrder.Sound s := by
  unfold State.resumeOrder
  split
  · exact s.accept_sound _ _
  · exact s.refuse_sound _

theorem State.queryJunction_sound (s : State) (n : JunctionNumber) : (s.queryJunction n).Sound s := by
  unfold State.queryJunction
  split
  · exact s.accept_sound _ _
  · exact s.refuse_sound _

theorem State.queryMirror_sound (s : State) (choice : Nat) : (s.queryMirror choice).Sound s := by
  unfold State.queryMirror
  split
  · exact s.accept_sound _ _
  · split
    · exact s.accept_sound _ _
    · exact s.refuse_sound _

theorem State.readEvents_sound (s : State) (n : Nat) : (s.readEvents n).Sound s := by
  unfold State.readEvents
  split
  · exact s.accept_sound _ _
  · exact s.refuse_sound _

theorem State.clearAlarm_sound (s : State) (alarm : Nat) (count : Byte) : (s.clearAlarm alarm count).Sound s := by
  unfold State.clearAlarm
  split
  · exact s.refuse_sound _
  · dsimp only
    split
    · exact s.accept_sound _ _
    · exact .inr rfl

theorem OrderKind.run_sound (k : OrderKind) (p : List Byte) (s : State) : (k.run p s).Sound s := by
  cases k with
  | configure => exact s.configure_sound p
  | plan => exact s.plan_sound p
  | amend => exact s.amend_sound p
  | cancel => exact s.cancel_sound _
  | withdrawAll => exact s.accept_sound _ _
  | layout => exact s.layoutOrder_sound p
  | resumeFetch => exact s.resumeOrder_sound
  | queryStatus => exact s.accept_sound _ _
  | queryJunction => exact s.queryJunction_sound _
  | queryMirror => exact s.queryMirror_sound _
  | readEvents => exact s.readEvents_sound _
  | clearAlarm => exact s.clearAlarm_sound _ _

/-- Settles O31: a frame that its kind's rules answer, and one that they do not. -/
theorem refusedOrderLeavesPart : Obligations.RefusedOrderLeavesPart := by
  intro k p crc s t r _ hexec hreply hstatus
  rw [exec_command] at hexec
  cases hexec
  obtain ⟨-, -, -, htaken⟩ | hframe := s.takeOrder_cases k.code p crc (k.fits p) (k.run p)
  · rw [htaken] at hreply ⊢
    have hstate : (k.run p s).state = s := by
      refine (k.run_sound p s).resolve_left fun haccepted => hstatus ?_
      have : (k.run p s).reply = r := by simpa [Answer.sent] using hreply
      rw [← this, haccepted]
    rw [Answer.sent, hstate]
  · exact hframe

/-! ### CONFIGURE (R180, R181) -/

/-- Settles O32. -/
theorem configureOrder : Obligations.ConfigureOrder := by
  intro s p crc htakes
  have hexec : exec (.configure p crc) s = .next (s.configure p).sent := exec_taken htakes
  rw [hexec]
  refine ⟨fun hst => ?_, fun hst hd => ?_, fun c hst hd => ?_⟩
  · rw [State.configure, if_pos hst, State.refuse_sent]
  · rw [State.configure, if_neg (not_ne_iff.2 hst), hd]
    rfl
  · rw [State.configure, if_neg (not_ne_iff.2 hst), hd]
    rfl

/-! ### PLAN and AMEND: the checks (R41, R44) -/

theorem State.planningClosed_eq_false_iff {s : State} :
    s.planningClosed = false ↔ s.bus.station ≠ .unconfigured ∧ s.timing.hfValid = true := by
  simp [State.planningClosed]

/-- Checks 4 to 7, each reached when those before it pass. -/
theorem State.fieldsRefusal_order (s : State) (n : JunctionNumber) (f : FieldSet) (others : List Junction) :
    let apart := ∀ r ∈ others, f.overlaps r.fields = false ∧
      ∀ a, r.pending = some a → f.overlaps a.fields = false
    let early := ahead (f.commitFrame s.lead) s.hf = true ∧
      ∀ r ∈ others, r.state.isCommitted = true → behind f.claimStart r.fields.claimStart = false
    (s.fieldsInRange n f = false → s.fieldsRefusal n f others = some .refusedRange) ∧
    (s.fieldsInRange n f = true → f.longEnough = false → s.fieldsRefusal n f others = some .refusedLength) ∧
    (s.fieldsInRange n f = true → f.longEnough = true → ¬ apart →
      s.fieldsRefusal n f others = some .refusedOverlap) ∧
    (s.fieldsInRange n f = true → f.longEnough = true → apart → ¬ early →
      s.fieldsRefusal n f others = some .refusedLate) ∧
    (s.fieldsInRange n f = true → f.longEnough = true → apart → early → s.fieldsRefusal n f others = none) := by
  dsimp only
  have hapart : (others.any fun r => r.occupies f) = false ↔ ∀ r ∈ others, f.overlaps r.fields = false ∧
      ∀ a, r.pending = some a → f.overlaps a.fields = false := by
    simp only [List.any_eq_false, Bool.not_eq_true, Junction.occupies_eq_false_iff, Junction.occupied]
    refine forall_congr' fun r => imp_congr_right fun _ => ?_
    cases r.pending <;> simp
  have hearly : s.tooLate f others = false ↔ ahead (f.commitFrame s.lead) s.hf = true ∧
      ∀ r ∈ others, r.state.isCommitted = true → behind f.claimStart r.fields.claimStart = false := by
    simp [State.tooLate]
  rw [← hapart, ← hearly]
  simp +contextual [State.fieldsRefusal]

theorem State.plan_closed {s : State} (p : List Byte)
    (h : ¬ (s.bus.station ≠ .unconfigured ∧ s.timing.hfValid = true)) : s.plan p = s.refuse .refusedState := by
  rw [← State.planningClosed_eq_false_iff, Bool.not_eq_false] at h
  exact if_pos h

/-- PLAN's checks 1 to 3 passed. -/
theorem State.plan_open {s : State} {p : List Byte} (h : s.bus.station ≠ .unconfigured ∧ s.timing.hfValid = true)
    (hroom : s.table.length < 16) (hnew : s.junction? (payloadNumber p) = none) :
    s.plan p = match decodeFieldSet p with
      | none => s.refuse .refusedRange
      | some f => match s.fieldsRefusal (payloadNumber p) f s.table with
        | some st => s.refuse st
        | none => ({ s with table := insertByStart (plannedRecord (payloadNumber p) f) s.table }).accept
          (f.derived s.lead) := by
  have hclosed := State.planningClosed_eq_false_iff.2 h
  have hroom' : ¬ tableCapacity ≤ s.table.length := Nat.not_le.2 hroom
  simp only [State.plan, hclosed, hroom', hnew]
  rfl

/-- A record joins before the first one that it is behind. -/
theorem insertByStart_split (r : Junction) (t : List Junction) : ∃ pre post, t = pre ++ post ∧
    (∀ y ∈ pre, behind r.fields.claimStart y.fields.claimStart = false) ∧
    (∀ y ∈ post.head?, behind r.fields.claimStart y.fields.claimStart = true) ∧
    insertByStart r t = pre ++ r :: post := by
  induction t with
  | nil => exact ⟨[], [], rfl, by simp, by simp, rfl⟩
  | cons x t ih =>
    by_cases h : behind r.fields.claimStart x.fields.claimStart = true
    · exact ⟨[], x :: t, rfl, by simp, by simpa using h, if_pos h⟩
    · obtain ⟨pre, post, rfl, hpre, hpost, hinsert⟩ := ih
      refine ⟨x :: pre, post, rfl, ?_, hpost, ?_⟩
      · simpa [Bool.eq_false_iff.2 h] using hpre
      · rw [insertByStart, if_neg h, hinsert]
        rfl

/-- Settles O33: the checks in their order, then the place in the table. -/
theorem planOrder : Obligations.PlanOrder := by
  intro s p crc htakes
  have hexec : exec (.plan p crc) s = .next (s.plan p).sent := exec_taken htakes
  dsimp only
  rw [hexec]
  refine ⟨fun h => ?_, fun h hroom => ?_, fun h hroom hnew => ?_, fun h hroom hnew hd => ?_,
    fun f h hroom hnew hd => ?_⟩
  · rw [State.plan_closed p h, State.refuse_sent]
  · have hclosed := State.planningClosed_eq_false_iff.2 h
    have hfull : tableCapacity ≤ s.table.length := Nat.not_lt.1 hroom
    simp [State.plan, hclosed, hfull]
  · have hclosed := State.planningClosed_eq_false_iff.2 h
    have hroom' : ¬ tableCapacity ≤ s.table.length := Nat.not_le.2 hroom
    simp [State.plan, hclosed, hroom', Option.isSome_iff_ne_none.2 hnew]
  · rw [State.plan_open h hroom hnew, hd]
    rfl
  · rw [State.plan_open h hroom hnew, hd]
    obtain ⟨hrange, hlength, hoverlap, hlate, hpass⟩ := s.fieldsRefusal_order (payloadNumber p) f s.table
    refine ⟨fun h1 => ?_, fun h1 h2 => ?_, fun h1 h2 h3 => ?_, fun h1 h2 h3 h4 => ?_, fun h1 h2 h3 h4 => ?_⟩
    · simp only [hrange h1, State.refuse_sent]
    · simp only [hlength h1 h2, State.refuse_sent]
    · simp only [hoverlap h1 h2 h3, State.refuse_sent]
    · simp only [hlate h1 h2 h3 h4, State.refuse_sent]
    · obtain ⟨pre, post, htable, hpre, hpost, hinsert⟩ :=
        insertByStart_split (plannedRecord (payloadNumber p) f) s.table
      refine ⟨pre, post, htable, hpre, hpost, ?_⟩
      simp only [hpass h1 h2 h3 h4, hinsert]
      rfl

end Sys2Proof.Machine

/-! PROOFS. AMEND, CANCEL and WITHDRAW_ALL (R43 to R52). -/

namespace Sys2Proof.Machine

/-! ### AMEND (R44 to R49) -/

theorem State.amend_closed {s : State} (p : List Byte)
    (h : ¬ (s.bus.station ≠ .unconfigured ∧ s.timing.hfValid = true)) : s.amend p = s.refuse .refusedState := by
  rw [← State.planningClosed_eq_false_iff, Bool.not_eq_false] at h
  exact if_pos h

/-- AMEND's checks 1 and 2 passed. -/
theorem State.amend_open {s : State} {p : List Byte} {r : Junction}
    (h : s.bus.station ≠ .unconfigured ∧ s.timing.hfValid = true) (hr : s.junction? (payloadNumber p) = some r) :
    s.amend p = if r.state.isCommitted then s.refuse .refusedLate
      else match decodeFieldSet p with
        | none => s.refuse .refusedRange
        | some f => match s.fieldsRefusal (payloadNumber p) f (removeNumber (payloadNumber p) s.table) with
          | some st => s.refuse st
          | none => s.amendPath r f := by
  have hclosed := State.planningClosed_eq_false_iff.2 h
  simp only [State.amend, hclosed, hr]
  rfl

/-- Settles O35: the checks in their order. -/
theorem amendChecks : Obligations.AmendChecks := by
  intro s p crc htakes
  have hexec : exec (.amend p crc) s = .next (s.amend p).sent := exec_taken htakes
  dsimp only
  rw [hexec]
  refine ⟨fun h => ?_, fun h hn => ?_, fun r h hr => ⟨fun hcommitted => ?_, fun hnot hd => ?_, fun f hnot hd => ?_⟩⟩
  · rw [State.amend_closed p h, State.refuse_sent]
  · have hclosed := State.planningClosed_eq_false_iff.2 h
    simp [State.amend, hclosed, hn]
  · rw [State.amend_open h hr, if_pos hcommitted, State.refuse_sent]
  · rw [State.amend_open h hr, if_neg (by simp [hnot]), hd]
    rfl
  · rw [State.amend_open h hr, if_neg (by simp [hnot]), hd]
    obtain ⟨hrange, hlength, hoverlap, hlate, -⟩ :=
      s.fieldsRefusal_order (payloadNumber p) f (removeNumber (payloadNumber p) s.table)
    refine ⟨fun h1 => ?_, fun h1 h2 => ?_, fun h1 h2 h3 => ?_, fun h1 h2 h3 h4 => ?_⟩
    · simp only [hrange h1, State.refuse_sent]
    · simp only [hlength h1 h2, State.refuse_sent]
    · simp only [hoverlap h1 h2 h3, State.refuse_sent]
    · simp only [hlate h1 h2 h3 h4, State.refuse_sent]

/-- An AMEND that passes its checks takes its path. -/
theorem exec_amend_path {s : State} {p : List Byte} {crc : Half} {r : Junction} {f : FieldSet}
    (htakes : s.Takes .amend p crc) (h : s.bus.station ≠ .unconfigured ∧ s.timing.hfValid = true)
    (hr : s.junction? (payloadNumber p) = some r) (hnot : r.state.isCommitted = false)
    (hd : decodeFieldSet p = some f)
    (hf : s.fieldsRefusal (payloadNumber p) f (removeNumber (payloadNumber p) s.table) = none) :
    exec (.amend p crc) s = .next (s.amendPath r f).sent := by
  have hexec : exec (.amend p crc) s = .next (s.amend p).sent := exec_taken htakes
  rw [hexec, State.amend_open h hr, if_neg (by simp [hnot]), hd]
  simp only [hf]

theorem RecordState.isCommitted_of_preair {st : RecordState} (h : st = .planned ∨ st = .opened ∨ st = .locked) :
    st.isCommitted = false := by
  rcases h with rfl | rfl | rfl <;> rfl

theorem State.amendPath_planned {s : State} {r : Junction} (f : FieldSet) (h : r.state = .planned) :
    s.amendPath r f = (s.amendRecord r f (amendedPromo r.promo f)).amended f .replaced := by
  rw [State.amendPath, h]

theorem State.amendPath_opened {s : State} {r : Junction} (f : FieldSet) (h : r.state = .opened) :
    s.amendPath r f = if r.keepsClaim f (amendedPromo r.promo f)
      then (s.amendRecord r f (amendedPromo r.promo f)).amended f .kept
      else ((s.amendRecord r f (amendedPromo r.promo f)).updateClaim r.number .record OwnClaim.repost).amended f
        .reposted := by
  rw [State.amendPath, h]

theorem State.amendPath_locked {s : State} {r : Junction} (f : FieldSet) (h : r.state = .locked) :
    s.amendPath r f = if r.keepsClaim f (amendedPromo r.promo f) then s.amendLocked r f (amendedPromo r.promo f)
      else s.amendPending r f (amendedPromo r.promo f) := by
  rw [State.amendPath, h]

/-- Settles O36: the path by the state of the record, whether it keeps its claim, and what is pending. -/
theorem amendPaths : Obligations.AmendPaths := by
  intro s p crc r f htakes hst hvalid hr hd hf
  dsimp only
  have hpath (h : r.state = .planned ∨ r.state = .opened ∨ r.state = .locked) :=
    exec_amend_path htakes ⟨hst, hvalid⟩ hr (RecordState.isCommitted_of_preair h) hd hf
  have hlocked (h : r.state = .locked) := hpath (.inr (.inr h))
  refine ⟨fun h => ?_, fun h hk => ?_, fun h hk => ?_, fun h hk hp => ?_, fun h hk hp => ?_, fun h hk hp h3 => ?_,
    fun h hk hp h3 => ?_, fun h hk hp => ?_⟩
  · rw [hpath (.inl h), State.amendPath_planned f h]
    rfl
  · rw [hpath (.inr (.inl h)), State.amendPath_opened f h, if_pos hk]
    rfl
  · rw [hpath (.inr (.inl h)), State.amendPath_opened f h, if_neg hk]
    rfl
  · rw [hlocked h, State.amendPath_locked f h, if_pos hk, State.amendLocked]
    rw [if_neg (by simp [hp])]
    rfl
  · rw [hlocked h, State.amendPath_locked f h, if_pos hk, State.amendLocked]
    rw [if_pos hp]
    rfl
  · rw [hlocked h, State.amendPath_locked f h, if_neg hk, State.amendPending]
    rw [if_neg (by simp [hp]), if_pos h3]
    rfl
  · rw [hlocked h, State.amendPath_locked f h, if_neg hk, State.amendPending]
    rw [if_neg (by simp [hp]), if_neg (by omega)]
    rfl
  · rw [hlocked h, State.amendPath_locked f h, if_neg hk, State.amendPending]
    rw [if_pos hp]
    rfl

/-! ### CANCEL and WITHDRAW_ALL (R50 to R52) -/

/-- Every slot that `r` does not hold FILLING is of a junction for which `p` holds. -/
def Ring.KeepsBut (r : Ring) (p : JunctionNumber → Prop) : Prop :=
  ∀ u, some u ∈ r.slots → p u.junction ∨ u.state = .filling

theorem Ring.KeepsBut.free {r : Ring} {p : JunctionNumber → Prop} (h : r.KeepsBut p) (q : RingSlot → Bool) :
    (r.free q).KeepsBut p := by
  intro u hu
  simp only [Ring.free, List.mem_map, Option.filter_eq_some_iff] at hu
  obtain ⟨_, hmem, rfl, -⟩ := hu
  exact h u hmem

theorem State.orphanRequest_keepsBut {s : State} {p : JunctionNumber → Prop} (h : s.ring.KeepsBut p) :
    s.orphanRequest.ring.KeepsBut p := by
  unfold State.orphanRequest
  split
  · exact h
  · split
    · exact h
    · dsimp only
      cases s.engine.state with
      | halted | backoff => exact h.free _
      | idle | requesting | receiving => exact h

theorem State.orphanWhere_keepsBut {s : State} {p : JunctionNumber → Prop} (h : s.ring.KeepsBut p)
    (q : Request → Bool) : (s.orphanWhere q).ring.KeepsBut p := by
  unfold State.orphanWhere
  split
  · split
    · exact State.orphanRequest_keepsBut h
    · exact h
  · exact h

theorem State.beginFrame_keepsBut {s : State} {p : JunctionNumber → Prop} (h : s.ring.KeepsBut p) :
    s.beginFrame.ring.KeepsBut p := by
  unfold State.beginFrame
  split
  · split
    · intro u hu
      rcases List.mem_or_eq_of_mem_set hu with hu | hu
      · exact h u hu
      · cases hu
        exact .inr rfl
    · exact h
  · exact h

/-- No slot of a junction that has ended is other than FILLING (R176). -/
theorem State.endRecord_slots {s : State} {n : JunctionNumber} {r : Junction} (e : Ending)
    (h : s.junction? n = some r) : (s.endRecord n e).ring.KeepsBut (· ≠ n) := by
  unfold State.endRecord
  rw [h]
  refine State.beginFrame_keepsBut ?_
  simp only [State.postEnd]
  refine State.orphanWhere_keepsBut ?_ _
  intro u hu
  simp only [State.freeSlots, Ring.free, List.mem_map, Option.filter_eq_some_iff] at hu
  obtain ⟨_, -, rfl, hkept⟩ := hu
  by_cases hn : u.junction = n
  · exact .inr (by simpa [hn, RingSlot.isFilling] using hkept)
  · exact .inl hn

/-- The first request for early release stands; a later one is noted (R128, R130). -/
theorem State.requestRelease_first {s : State} {n : JunctionNumber} (why : Reason) (h : s.sequencer.onAir = some n)
    (hr : s.sequencer.reason = none) :
    s.requestRelease why = { s with sequencer := { s.sequencer with reason := some why } } := by
  rw [State.requestRelease, h]
  exact if_pos (by simp [hr])

theorem State.requestRelease_later {s : State} {n : JunctionNumber} (why : Reason) (h : s.sequencer.onAir = some n)
    (hr : s.sequencer.reason.isSome = true) : s.requestRelease why = s.noteRelease n why := by
  rw [State.requestRelease, h]
  exact if_neg (by simpa [Option.isSome_iff_ne_none] using hr)

theorem exec_cancel {s : State} {p : List Byte} {crc : Half} (h : s.Takes .cancel p crc) :
    exec (.cancel p crc) s = .next (s.cancel (payloadNumber p)).sent := exec_taken h

/-- Settles O37: an unknown number, a record that is not on air, and the one that is. -/
theorem cancelOrder : Obligations.CancelOrder := by
  intro s p crc htakes
  dsimp only
  rw [exec_cancel htakes]
  refine ⟨fun hn => ?_, fun r hr => ⟨fun hoff => ?_, fun hon hair => ⟨fun hreason => ?_, fun hreason => ?_⟩⟩⟩
  · rw [State.cancel, hn]
    rfl
  · have hn := (State.junction?_mem hr).2
    have hcancel : s.cancel (payloadNumber p) = (s.endRecord (payloadNumber p) cancelled).accept [] := by
      rw [State.cancel, hr]
      exact if_neg (by simp [hoff])
    rw [hcancel]
    have hspec := State.endRecord_spec cancelled hr
    refine ⟨_, rfl, rfl, ?_, ?_, fun e he => (State.endRecord_entries cancelled hr he).1, fun u hu hun => ?_, ?_⟩
    · show ({ s.endRecord (payloadNumber p) cancelled with exchange := _ } : State) = _
      rw [hspec]
      rfl
    · show (s.endRecord (payloadNumber p) cancelled).publisher = _
      rw [hspec]
      rfl
    · exact (State.endRecord_slots cancelled hr u hu).resolve_left (not_ne_iff.2 hun)
    · exact State.endRecord_posted cancelled hr
  · have hcancel : s.cancel (payloadNumber p) = (s.requestRelease .cancel).accept [] := by
      rw [State.cancel, hr]
      exact if_pos hon
    rw [hcancel, State.requestRelease_first .cancel hair hreason]
    rfl
  · have hcancel : s.cancel (payloadNumber p) = (s.requestRelease .cancel).accept [] := by
      rw [State.cancel, hr]
      exact if_pos hon
    rw [hcancel, State.requestRelease_later .cancel hair hreason]
    rfl

/-- Settles O38: a run of endings. -/
theorem withdrawAllOrder : Obligations.WithdrawAllOrder := by
  intro s p crc htakes hnodup
  have hexec : exec (.withdrawAll p crc) s = .next s.withdrawAll.sent := exec_taken htakes
  obtain ⟨hended, htable⟩ := State.endEach_filter (s := s) (fun _ => cancelled) (fun r => !r.state.isOnAir) hnodup
  simp only [Bool.not_not] at htable
  dsimp only
  rw [hexec, State.withdrawAll, State.numbersWhere]
  rw [State.endRecords_eq, List.length_map]
  refine ⟨_, rfl, rfl, ?_, hended.publisher, fun r hr e he => (hended.entries e he).1 r hr, hended.events⟩
  rw [← htable]
  show ({ s.endEach (fun _ => cancelled) _ with exchange := _ } : State) = _
  rw [hended.rest]
  rfl

end Sys2Proof.Machine

/-! PROOFS. The Layout Store, and what the queries report (Chapter 8, R182 to R184). -/

namespace Sys2Proof.Machine

/-! ### The two slots -/

theorem LayoutSlot.other_ne (i : LayoutSlot) : i.other ≠ i := by cases i <;> decide

theorem LayoutSlot.other_other (i : LayoutSlot) : i.other.other = i := by cases i <;> rfl

theorem LayoutStore.get_write_same (st : LayoutStore) (i : LayoutSlot) (l : Layout) : (st.write i l).get i = l := by
  cases i <;> rfl

theorem LayoutStore.get_write_other (st : LayoutStore) {i j : LayoutSlot} (l : Layout) (h : j ≠ i) :
    (st.write i l).get j = st.get j := by
  cases i with
  | l0 =>
    cases j with
    | l0 => exact absurd rfl h
    | l1 => rfl
  | l1 =>
    cases j with
    | l0 => rfl
    | l1 => exact absurd rfl h

theorem LayoutStore.write_active (st : LayoutStore) (i : LayoutSlot) (l : Layout) :
    (st.write i l).active = st.active := by cases i <;> rfl

/-! ### LAYOUT (R144) -/

theorem exec_layout {s : State} {p : List Byte} {crc : Half} (h : s.Takes .layout p crc) :
    exec (.layout p crc) s = .next (s.layoutOrder p).sent := exec_taken h

theorem State.layoutOrder_range {s : State} {p : List Byte} (hst : s.bus.station ≠ .unconfigured)
    (h : (decodeLayout p 0).valid = false ∨ LoadMode.ofCode (num1 p 17) = none) :
    s.layoutOrder p = s.refuse .refusedRange := by
  unfold State.layoutOrder
  dsimp only
  rw [if_neg hst]
  split
  · next hv hm =>
    rcases h with h | h
    · simp [h] at hv
    · simp [h] at hm
  · rfl

theorem State.layoutOrder_staged {s : State} {p : List Byte} {m : LoadMode} (hst : s.bus.station ≠ .unconfigured)
    (hv : (decodeLayout p 0).valid = true) (hm : LoadMode.ofCode (num1 p 17) = some m) :
    s.layoutOrder p = ({ s with layouts := s.layouts.stage (decodeLayout p 0) m }).accept
      [s.layouts.inactive.code, byteFlag s.layouts.staged.isSome] := by
  unfold State.layoutOrder
  dsimp only
  rw [if_neg hst, hv, hm]

/-! ### Loads at a start (R123, R146 to R148) -/

/-- A junction's own layout is written over the slot that is not active, and loaded. -/
theorem State.startLayouts_own {s : State} {r : Junction} {l : Layout} (h : r.fields.layout = some l) :
    s.startLayouts r =
      (({ s.dropStaged r.number with
        layouts := (s.dropStaged r.number).layouts.write (s.dropStaged r.number).layouts.inactive l } : State).loadLayout
          junctionLoadCode (some r.number)) := by
  unfold State.startLayouts State.loadAtStart
  rw [h]
  dsimp only
  split
  · exact if_neg (by simp [State.loadLayout, LayoutStore.load])
  · rfl

theorem State.dropStaged_layouts (s : State) (n : JunctionNumber) : (s.dropStaged n).layouts = s.layouts := by
  unfold State.dropStaged
  split <;> rfl

theorem State.dropStaged_eq (s : State) (n : JunctionNumber) : s.dropStaged n =
    { s with reporting := (s.dropStaged n).reporting } := by
  unfold State.dropStaged
  split <;> rfl

theorem State.dropStaged_reporting (s : State) (n : JunctionNumber) :
    (s.layouts.staged = none → s.dropStaged n = s) ∧
    ∀ m, s.layouts.staged = some m → s.dropStaged n =
      s.post .layoutDropped (some n) (detailOf m.code) (detailOf s.layouts.active.other.code) := by
  unfold State.dropStaged
  refine ⟨fun h => ?_, fun m h => ?_⟩
  · rw [h]
  · rw [h]
    rfl

/-- Without one, a layout staged AT_JUNCTION is loaded, or with Rin 0 or 1 one staged AT_RAMP_END. -/
theorem State.startLayouts_staged {s : State} {r : Junction} (h : r.fields.layout = none) :
    (s.layouts.staged = some .atJunction → s.startLayouts r = s.loadLayout LoadMode.atJunction.code (some r.number)) ∧
    (s.layouts.staged ≠ some .atJunction →
      s.startLayouts r = if r.fields.rin ≤ 1 then s.rampEndNotice r.number else s) := by
  refine ⟨fun hst => ?_, fun hst => ?_⟩
  · have hstart : s.loadAtStart r.number r.fields.layout = s.loadLayout LoadMode.atJunction.code (some r.number) := by
      rw [h]
      exact if_pos hst
    unfold State.startLayouts
    rw [hstart]
    dsimp only
    split
    · exact if_neg (by simp [State.loadLayout, LayoutStore.load])
    · rfl
  · have hstart : s.loadAtStart r.number r.fields.layout = s := by
      rw [h]
      exact if_neg hst
    unfold State.startLayouts
    rw [hstart]

/-- Settles O40: the order, the loads at a boundary and at a ramp end, and those of a start. -/
theorem layoutStagedAndLoaded : Obligations.LayoutStagedAndLoaded := by
  refine ⟨fun s p crc htakes => ?_, fun s => ?_⟩
  · dsimp only
    rw [exec_layout htakes]
    refine ⟨fun hst => ?_, fun hst h => ?_, fun m hst hv hm => ?_⟩
    · rw [State.layoutOrder, if_pos hst]
      rfl
    · rw [State.layoutOrder_range hst h, State.refuse_sent]
    · rw [State.layoutOrder_staged hst hv hm]
      refine ⟨_, rfl, rfl, LayoutStore.write_active _ _ _, ?_, ?_, rfl, rfl⟩
      · show (s.layouts.write _ _).get (s.layouts.write _ _).active = _
        rw [LayoutStore.write_active]
        exact LayoutStore.get_write_other _ _ (LayoutSlot.other_ne _).symm
      · show (s.layouts.write _ _).get (s.layouts.write _ _).active.other = _
        rw [LayoutStore.write_active]
        exact LayoutStore.get_write_same _ _ _
  · dsimp only
    refine ⟨fun b x => ⟨fun h => if_pos h, fun h => if_neg h⟩, fun n => ⟨fun h => if_pos h, fun h => if_neg h⟩,
      fun r => ⟨fun l hl => ⟨_, rfl, s.startLayouts_eq r, ?_⟩, fun hl => ⟨fun h => ?_, fun h hrin => ?_, fun h hno => ?_⟩⟩⟩
    · rw [State.startLayouts_own hl]
      obtain ⟨hnone, hsome⟩ := s.dropStaged_reporting r.number
      have hlayouts := s.dropStaged_layouts r.number
      refine ⟨?_, rfl, ?_, ?_, fun h => ?_, fun m h => ?_⟩
      · show (LayoutStore.write _ _ _).active.other = _
        rw [LayoutStore.write_active, hlayouts]
      · show (LayoutStore.write _ _ _).get _ = _
        rw [hlayouts]
        exact LayoutStore.get_write_same _ _ _
      · show (LayoutStore.write _ _ _).get _ = _
        rw [hlayouts, LayoutSlot.other_other]
        exact LayoutStore.get_write_other _ _ (LayoutSlot.other_ne _).symm
      · rw [hnone h, State.loadLayout_eq]
        show (State.post _ _ _ _ (detailOf (LayoutStore.write _ _ _).active.other.code)).reporting = _
        rw [LayoutStore.write_active]
        rfl
      · rw [hsome m h, State.loadLayout_eq]
        show (State.post _ _ _ _ (detailOf (LayoutStore.write _ _ _).active.other.code)).reporting = _
        rw [LayoutStore.write_active]
        rfl
    · exact (State.startLayouts_staged hl).1 h
    · rw [(State.startLayouts_staged hl).2 (by simp [h]), if_pos hrin]
      exact if_pos h
    · rw [(State.startLayouts_staged hl).2 h]
      split
      · next hrin => exact if_neg fun hst => hno ⟨hst, hrin⟩
      · rfl

/-! ### The lengths of reports (R182 to R184) -/

@[simp] theorem bytes2_length (n : Nat) : (bytes2 n).length = 2 := rfl
@[simp] theorem bytes3_length (n : Nat) : (bytes3 n).length = 3 := rfl
@[simp] theorem bytes4_length (n : Nat) : (bytes4 n).length = 4 := rfl
@[simp] theorem halfBytes_length (h : Half) : (halfBytes h).length = 2 := rfl
@[simp] theorem frameBytes_length (f : Frame) : (frameBytes f).length = 3 := rfl
@[simp] theorem absent_length (n : Nat) : (absent n).length = n := List.length_replicate
@[simp] theorem Four.toList_length {α : Type} (f : Four α) : f.toList.length = 4 := rfl
@[simp] theorem junctionBytes_length (n : Option JunctionNumber) : (junctionBytes n).length = 2 := by cases n <;> rfl
@[simp] theorem markedFrame_length (f : Option Frame) : (markedFrame f).length = 4 := by cases f <;> rfl
@[simp] theorem Claim.encode_length (c : Claim) : c.encode.length = 13 := rfl
@[simp] theorem Layout.encode_length (l : Layout) : l.encode.length = 17 := rfl
@[simp] theorem Configuration.encode_length (c : Configuration) : c.encode.length = 24 := rfl
@[simp] theorem Alarm.report_length (a : Alarm) : a.report.length = 6 := by simp [Alarm.report]
@[simp] theorem Alarms.toList_length (a : Alarms) : a.toList.length = 8 := rfl

/-- Pieces of one length, in a row. -/
theorem length_flatMap_of_forall {α β : Type} {l : List α} {f : α → List β} {n : Nat}
    (h : ∀ a ∈ l, (f a).length = n) : (l.flatMap f).length = n * l.length := by
  rw [List.length_flatMap, List.map_congr_left h, List.map_const', List.sum_replicate, smul_eq_mul, mul_comm]

theorem CueBus.report_length (b : CueBus) : b.report.length = 7 := by
  unfold CueBus.report
  cases b.digest <;> simp

theorem configReport_length (c : Option Configuration) : (configReport c).length = 25 := by
  cases c <;> simp [configReport]

theorem State.tableReport_length (s : State) : s.tableReport.length = 1 + 3 * s.table.length := by
  rw [State.tableReport, List.length_cons, length_flatMap_of_forall (n := 3) (fun _ _ => rfl), Nat.add_comm]

theorem Engine.report_length (g : Engine) : g.report.length = 16 := by
  unfold Engine.report requestReport
  cases g.request <;> simp

theorem Ring.slotReport_length (r : Ring) (i : Nat) : (r.slotReport i).length = 8 := by
  unfold Ring.slotReport
  split <;> simp

theorem Ring.report_length (r : Ring) : r.report.length = 16 + 8 * r.slots.length := by
  simp only [Ring.report, List.length_append, List.length_cons, List.length_nil,
    length_flatMap_of_forall (fun i _ => r.slotReport_length i), List.length_range, junctionBytes_length, bytes2_length,
    bytes3_length]
  omega

theorem State.reportingReport_length (s : State) : s.reportingReport.length = 52 := by
  simp only [State.reportingReport, List.length_append, List.length_cons, List.length_nil, bytes2_length,
    length_flatMap_of_forall (fun a _ => Alarm.report_length a), Alarms.toList_length]

theorem State.statusReport_length (s : State) :
    s.statusReport.length = 165 + 3 * s.table.length + 8 * s.ring.slots.length := by
  simp only [State.statusReport, State.timingReport, Sequencer.report, LayoutStore.report, List.length_append,
    List.length_cons, List.length_nil, List.length_map, CueBus.report_length, configReport_length,
    State.tableReport_length, Engine.report_length, Ring.report_length, State.reportingReport_length,
    frameBytes_length, junctionBytes_length, Four.toList_length, Layout.encode_length]
  omega

theorem PresenceEntry.report_length (e : PresenceEntry) : e.report.length = 18 := by
  unfold PresenceEntry.report
  cases e.heard <;> simp

theorem MirrorEntry.report_length {e : MirrorEntry} (h : e.claims.length ≤ 4) : e.report.length = 65 := by
  have hclaims : (e.claims.flatMap MirrorClaim.report).length = 15 * e.claims.length :=
    length_flatMap_of_forall fun _ _ => rfl
  simp only [MirrorEntry.report, List.length_append, markedFrame_length, List.length_cons, List.length_nil, hclaims,
    absent_length]
  omega

theorem State.mirrorReport_length {s : State} (h : ∀ i, (s.mirror.entry i).claims.length ≤ 4) :
    s.mirrorReport.length = 1332 := by
  have hblocks := length_flatMap_of_forall (l := stations) (n := 83)
    (f := fun i => (s.bus.entry i).report ++ (s.mirror.entry i).report) fun i _ => by
      rw [List.length_append, PresenceEntry.report_length, MirrorEntry.report_length (h i)]
  rw [State.mirrorReport, List.length_append, hblocks, markedFrame_length]
  rfl

/-! ### The queries (R25, R182 to R184) -/

/-- Settles O41: the three queries. -/
theorem queriesReport : Obligations.QueriesReport := by
  intro s p crc
  refine ⟨fun htakes => ⟨exec_taken htakes, s.statusReport_length⟩, fun htakes => ?_, fun htakes => ?_⟩
  · have hexec : exec (.queryJunction p crc) s = .next (s.queryJunction (payloadNumber p)).sent := exec_taken htakes
    rw [hexec]
    refine ⟨fun hn => ?_, fun r hr => ⟨?_, ?_⟩⟩
    · rw [State.queryJunction, hn]
      rfl
    · rw [State.queryJunction, hr]
      rfl
    · have hstate : [r.state.code, r.promo.code] <+: r.stateReport := List.prefix_append _ _
      exact ((List.prefix_append_right_inj _).2 hstate).trans (((((List.prefix_append _ _).trans
        (List.prefix_append _ _)).trans (List.prefix_append _ _)).trans (List.prefix_append _ _)).trans
        (List.prefix_append _ _))
  · have hexec : exec (.queryMirror p crc) s = .next (s.queryMirror (num1 p 0)).sent := exec_taken htakes
    rw [hexec]
    refine ⟨fun h => ?_, fun h => ?_, fun h => ?_, State.mirrorReport_length⟩
    · rw [State.queryMirror, if_pos h]
      rfl
    · rw [State.queryMirror, if_neg (by omega), if_pos h]
      exact ⟨_, rfl, rfl, rfl, s.clearCounts_entry⟩
    · rw [State.queryMirror, if_neg (by omega), if_neg (by omega)]
      rfl

end Sys2Proof.Machine

/-! PROOFS. The words of the store link and the ends of requests (Chapter 9). -/

namespace Sys2Proof.Machine

/-! ### What each word does in each engine state -/

/-- With no request on the link every word is discarded (R158). -/
theorem exec_link_discarded {s : State}
    (h : s.engine.state = .idle ∨ s.engine.state = .backoff ∨ s.engine.state = .halted) :
    exec .storeEnd s = .next s ∧ exec .storeDisconnect s = .next s ∧ exec .storeRetry s = .next s ∧
    exec .storeAbort s = .next s ∧ exec .noAnswerLimit s = .next s ∧
    ∀ index header payload parity, exec (.storeBlock index header payload parity) s = .next s := by
  have hend : exec .storeEnd s = execStoreEnd s := rfl
  have hdisconnect : exec .storeDisconnect s = execStoreDisconnect s := rfl
  have hretry : exec .storeRetry s = execStoreRetry s := rfl
  have habort : exec .storeAbort s = execStoreAbort s := rfl
  have hlimit : exec .noAnswerLimit s = execNoAnswerLimit s := rfl
  have hblock (i h p q) : exec (.storeBlock i h p q) s = execStoreBlock i h p q s := rfl
  simp only [hend, hdisconnect, hretry, habort, hlimit, hblock, execStoreEnd, execStoreDisconnect, execStoreRetry,
    execStoreAbort, execNoAnswerLimit, execStoreBlock]
  rcases h with h | h | h <;> simp [h]

/-- A request that waits for its reply. -/
theorem exec_link_requesting {s : State} (h : s.engine.state = .requesting) :
    exec .storeEnd s = .next s.endBrokenRun ∧ exec .storeDisconnect s = .next s.endBrokenRun ∧
    exec .storeRetry s = .next s.retryReply ∧ exec .storeAbort s = .next s.abortReply := by
  have hend : exec .storeEnd s = execStoreEnd s := rfl
  have hdisconnect : exec .storeDisconnect s = execStoreDisconnect s := rfl
  have hretry : exec .storeRetry s = execStoreRetry s := rfl
  have habort : exec .storeAbort s = execStoreAbort s := rfl
  simp [hend, hdisconnect, hretry, habort, execStoreEnd, execStoreDisconnect, execStoreRetry, execStoreAbort, h]

/-- A run that is being received: a broken one ends with END or DISCONNECT, any other is broken by RETRY, ABORT or an
END before its last block (R159). -/
theorem exec_link_receiving {s : State} (h : s.engine.state = .receiving) :
    exec .storeEnd s =
      .next (if s.engine.broken || !s.runComplete then s.endBrokenRun else s.endKeptRun) ∧
    exec .storeDisconnect s = .next (if s.engine.broken then s.endBrokenRun else s.endKeptRun) ∧
    exec .storeRetry s = .next (if s.engine.broken then s else s.endBrokenRun) ∧
    exec .storeAbort s = .next (if s.engine.broken then s else s.endBrokenRun) := by
  have hend : exec .storeEnd s = execStoreEnd s := rfl
  have hdisconnect : exec .storeDisconnect s = execStoreDisconnect s := rfl
  have hretry : exec .storeRetry s = execStoreRetry s := rfl
  have habort : exec .storeAbort s = execStoreAbort s := rfl
  simp only [hend, hdisconnect, hretry, habort, execStoreEnd, execStoreDisconnect, execStoreRetry, execStoreAbort, h,
    State.wordInRun, and_true]
  exact ⟨(apply_ite Host.Outcome.next _ _ _).symm, (apply_ite Host.Outcome.next _ _ _).symm⟩

/-- A request on the link meets the no-answer limit, and its blocks are received. -/
theorem exec_link_onLink {s : State} (h : s.engine.state = .requesting ∨ s.engine.state = .receiving) :
    exec .noAnswerLimit s = .next s.haltFetch ∧
    ∀ index header payload parity, exec (.storeBlock index header payload parity) s =
      .next (s.receiveBlock index (parityOf header payload == parity) payload) := by
  have hlimit : exec .noAnswerLimit s = execNoAnswerLimit s := rfl
  have hblock (i h p q) : exec (.storeBlock i h p q) s = execStoreBlock i h p q s := rfl
  simp only [hlimit, hblock, execNoAnswerLimit, execStoreBlock]
  rcases h with h | h <;> simp [h]

/-- The backoff ends (R166). -/
theorem exec_backoffExpiry (s : State) : exec .backoffExpiry s =
    .next (if s.engine.state = .backoff then if s.engine.broken then s.reissue else s.resend else s) := by
  have hdispatch : exec .backoffExpiry s = execBackoffExpiry s := rfl
  rw [hdispatch, execBackoffExpiry]
  cases h : s.engine.state with
  | backoff => exact (apply_ite Host.Outcome.next _ _ _).symm
  | idle | requesting | receiving | halted => rfl

/-! ### Blocks (R159, R163) -/

theorem State.receiveBlock_of_request {s : State} {r : Request} (index : Nat) (good : Bool) (payload : List LinkWord)
    (hr : s.engine.request = some r) : s.receiveBlock index good payload =
      if s.engine.broken then s
      else if index = s.engine.expect ∧ index < r.first + r.count then s.judgeBlock index good payload
      else s.breakRun := by
  rw [State.receiveBlock, hr]

theorem State.receiveBlock_broken {s : State} (index : Nat) (good : Bool) (payload : List LinkWord)
    (hb : s.engine.broken = true) : s.receiveBlock index good payload = s := by
  unfold State.receiveBlock
  split
  · exact if_pos hb
  · rfl

/-- Settles O47: each block by its place in the run and its parity. -/
theorem storeBlockJudged : Obligations.StoreBlockJudged := by
  refine ⟨fun s => ⟨fun h w hw => ?_, fun h => ?_, fun h => ?_, fun h hb => ?_⟩,
    fun s r index header parity payload h hr hb => ?_⟩
  · obtain ⟨hend, hdisconnect, hretry, habort, hlimit, -⟩ := exec_link_discarded h
    simp only [List.mem_cons, List.not_mem_nil, or_false] at hw
    rcases hw with rfl | rfl | rfl | rfl | rfl
    · exact hend
    · exact hdisconnect
    · exact hretry
    · exact habort
    · exact hlimit
  · obtain ⟨-, -, -, -, -, hblock⟩ := exec_link_discarded h
    exact hblock
  · rw [exec_backoffExpiry, if_neg h]
  · obtain ⟨-, -, hretry, habort⟩ := exec_link_receiving h
    obtain ⟨-, hblock⟩ := exec_link_onLink (.inr h)
    refine ⟨by rw [hretry, if_pos hb], by rw [habort, if_pos hb], fun i hd p q => ?_⟩
    rw [hblock, State.receiveBlock_broken _ _ _ hb]
  · obtain ⟨-, hblock⟩ := exec_link_onLink h
    dsimp only
    rw [hblock, State.receiveBlock_of_request _ _ _ hr, if_neg (by simp [hb])]
    have hparity : (parityOf header payload == parity) = decide (payload.foldl (fun a w => a ^^^ w) header = parity) :=
      rfl
    rw [hparity]
    refine ⟨fun hin hd => ?_, fun hin hd hgood => ?_, fun hin hd hbad hf => ?_, fun hin hd hbad hf => ?_, fun hout => ?_⟩
    · rw [if_pos hin, State.judgeBlock]
      simp [hd]
    · rw [if_pos hin, State.judgeBlock]
      simp only [hd, hgood, decide_true, if_true]
      rfl
    · rw [if_pos hin, State.judgeBlock]
      simp [hd, hbad, hf]
    · rw [if_pos hin, State.judgeBlock]
      simp [hd, hbad, Option.isSome_iff_ne_none.1 hf]
    · rw [if_neg hout]
      rfl

/-! ### The end of a run (R164 to R166) -/

theorem State.orphaned_eq {s : State} {r : Request} (hr : s.engine.request = some r) : s.orphaned = r.orphaned := by
  rw [State.orphaned, hr]

theorem State.runComplete_iff {s : State} {r : Request} (hr : s.engine.request = some r) :
    s.runComplete = true ↔ s.engine.expect = r.first + r.count := by
  rw [State.runComplete, hr, beq_iff_eq]

/-- A run that kept the protocol, of a request that is not orphaned. -/
theorem State.endKeptRun_eq {s : State} {r : Request} (hr : s.engine.request = some r) (ho : r.orphaned = false) :
    s.endKeptRun = if s.engine.condemned then s.damage .parity else s.reissue := by
  rw [State.endKeptRun, State.orphaned_eq hr, ho]
  rfl

theorem State.endBrokenRun_eq {s : State} {r : Request} (hr : s.engine.request = some r) (ho : r.orphaned = false) :
    s.endBrokenRun = if s.engine.condemned then s.damage .parity else s.countRetry true := by
  rw [State.endBrokenRun, State.orphaned_eq hr, ho]
  rfl

/-- A RETRY that counts, and the eighth. -/
theorem State.countRetry_spec {s : State} {r : Request} (broken : Bool) (hr : s.engine.request = some r) :
    (s.engine.retry < 7 → s.countRetry broken = { s with engine :=
      { s.engine with state := .backoff, retry := s.engine.retry + 1, broken := broken } }) ∧
    (7 ≤ s.engine.retry → s.ring.FillingDamaged (s.countRetry broken).ring ∧
      s.Posted (s.countRetry broken) .stall (some r.junction) (detailNat 2) (detailNat r.index)) := by
  refine ⟨fun h => if_pos (Nat.succ_lt_succ h), fun h => ?_⟩
  have hlimit : s.countRetry broken =
      ({ s with engine := { s.engine with retry := s.engine.retry + 1 } } : State).damage .retryLimit :=
    if_neg (by unfold retryLimit; omega)
  rw [hlimit]
  obtain ⟨hring, hposted⟩ := State.damage_spec
    ({ s with engine := { s.engine with retry := s.engine.retry + 1 } } : State) .retryLimit (q := r) hr
  exact ⟨hring, hposted.of_eq rfl rfl⟩

/-- Settles O48: kept runs and broken ones. -/
theorem storeRunEnds : Obligations.StoreRunEnds := by
  intro s r hst hr ho
  obtain ⟨hend, hdisconnect, hretry, habort⟩ := exec_link_receiving hst
  have hdamage := State.damage_spec s .parity hr
  dsimp only
  refine ⟨fun hb w hw => ?_, fun w hw => ?_⟩
  · have hkept : exec w s = .next s.endKeptRun := by
      rcases hw with rfl | ⟨rfl, hwhole⟩
      · rw [hdisconnect, if_neg (by simp [hb])]
      · rw [hend, if_neg (by simp [hb, (State.runComplete_iff hr).2 hwhole])]
    rw [hkept, State.endKeptRun_eq hr ho]
    refine ⟨fun hc => ?_, fun hc => ?_⟩
    · rw [if_pos hc]
      exact ⟨_, rfl, hdamage⟩
    · rw [if_neg (by simp [hc])]
      exact State.reissue_asksAgain hr
  · have hbroken : exec w s = .next s.endBrokenRun := by
      rcases hw with ⟨hb, rfl | rfl⟩ | ⟨hb, rfl | rfl | ⟨rfl, hwhole⟩⟩
      · rw [hend, if_pos (by simp [hb])]
      · rw [hdisconnect, if_pos hb]
      · rw [hretry, if_neg (by simp [hb])]
      · rw [habort, if_neg (by simp [hb])]
      · rw [hend, if_pos (by simp [mt (State.runComplete_iff hr).1 hwhole])]
    rw [hbroken, State.endBrokenRun_eq hr ho]
    obtain ⟨hcounts, hgone⟩ := State.countRetry_spec true hr
    refine ⟨fun hc => ?_, fun hc h7 => ?_, fun hc h7 => ?_⟩
    · rw [if_pos hc]
      exact ⟨_, rfl, hdamage⟩
    · rw [if_neg (by simp [hc]), hcounts h7]
    · rw [if_neg (by simp [hc])]
      exact ⟨_, rfl, hgone h7⟩

/-- Settles O49: RETRY replies and broken runs count in the same way, and the backoff ends by asking again. -/
theorem retryAndBackoff : Obligations.RetryAndBackoff := by
  intro s r hr ho
  have hcounts (w : Instr) (broken : Bool) (hw : exec w s = .next (s.countRetry broken)) :
      (s.engine.retry < 7 → exec w s = .next { s with engine :=
        { s.engine with state := .backoff, retry := s.engine.retry + 1, broken := broken } }) ∧
      (7 ≤ s.engine.retry → ∃ t, exec w s = .next t ∧ s.ring.FillingDamaged t.ring ∧
        s.Posted t .stall (some r.junction) (detailNat 2) (detailNat r.index)) := by
    obtain ⟨hbelow, hgone⟩ := State.countRetry_spec broken hr
    exact ⟨fun h7 => hw.trans (congrArg _ (hbelow h7)), fun h7 => ⟨_, hw, hgone h7⟩⟩
  have hbrokenRun (hc : s.engine.condemned = false) : s.endBrokenRun = s.countRetry true := by
    rw [State.endBrokenRun_eq hr ho, if_neg (by simp [hc])]
  dsimp only
  refine ⟨fun hst => ?_, fun hst hc => ?_, fun hst hb hc => ?_, fun hst => ⟨fun hb => ?_, fun hb => ?_⟩⟩
  · obtain ⟨-, -, hretry, -⟩ := exec_link_requesting hst
    refine hcounts _ _ (hretry.trans (congrArg _ (if_neg ?_)))
    rw [State.orphaned_eq hr, ho]
    exact Bool.false_ne_true
  · obtain ⟨hend, hdisconnect, -, -⟩ := exec_link_requesting hst
    rw [hbrokenRun hc] at hend hdisconnect
    exact ⟨hcounts _ _ hend, hcounts _ _ hdisconnect⟩
  · obtain ⟨hend, -, hretry, habort⟩ := exec_link_receiving hst
    rw [if_neg (by simp [hb]), hbrokenRun hc] at hretry habort
    refine ⟨hcounts _ _ hretry, hcounts _ _ habort, fun hwhole => hcounts _ _ ?_⟩
    rw [hend, if_pos (by simp [mt (State.runComplete_iff hr).1 hwhole]), hbrokenRun hc]
  · rw [exec_backoffExpiry, if_pos hst, if_neg (by simp [hb]), State.resend, hr]
    rfl
  · rw [exec_backoffExpiry, if_pos hst, if_pos hb]
    exact State.reissue_asksAgain hr

end Sys2Proof.Machine

/-! PROOFS. ABORT in REQUESTING: what becomes of the junction whose frame is refused (R167, R169). -/

namespace Sys2Proof.Machine

/-! ### Beginning a frame -/

/-- `s` once the frame at the fetch index of entry `e` has been begun in slot `i`. -/
def State.begun (s : State) (e : FetchEntry) (i : Nat) : State :=
  { s with
    engine := { s.engine with
      state := .requesting, retry := 0, refetch := none, condemned := false, discarding := false
      broken := false, expect := 0
      request := some
        { junction := e.junction, clip := e.clip, index := e.fetchIndex, first := 0, count := 135
          orphaned := false }
      entries := s.engine.entries.map
        (fun x => if x.junction = e.junction then { x with fetchIndex := x.fetchIndex + 1 } else x) }
    ring := s.ring.take i e.junction e.fetchIndex }

theorem Engine.updateEntry_entries (g : Engine) (n : JunctionNumber) (f : FetchEntry → FetchEntry) :
    (g.updateEntry n f).entries = g.entries.map (fun e => if e.junction = n then f e else e) := by
  simp only [Engine.updateEntry, beq_iff_eq]

theorem State.beginFrame_begun {s : State} {e : FetchEntry} {i : Nat} (hidle : s.engine.state = .idle)
    (he : s.engine.entries.find? FetchEntry.unfetched = some e) (hi : lowestFree s.ring.slots 0 = some i) :
    s.beginFrame = s.begun e i := by
  rw [State.beginFrame, if_pos hidle, he, hi]
  dsimp only
  simp only [Engine.send, Engine.updateEntry, beq_iff_eq]
  rfl

theorem State.beginFrame_cases (s : State) : s.beginFrame = s ∨ ∃ e i,
    e ∈ s.engine.entries ∧ e.fetchIndex < e.needed ∧ s.beginFrame = s.begun e i := by
  by_cases hidle : s.engine.state = .idle
  · cases he : s.engine.entries.find? FetchEntry.unfetched with
    | none =>
      left
      rw [State.beginFrame, if_pos hidle, he]
    | some e =>
      cases hi : lowestFree s.ring.slots 0 with
      | none =>
        left
        rw [State.beginFrame, if_pos hidle, he, hi]
      | some i =>
        refine .inr ⟨e, i, List.mem_of_find?_eq_some he, ?_, State.beginFrame_begun hidle he hi⟩
        simpa [FetchEntry.unfetched] using List.find?_some he
  · exact .inl (if_neg hidle)

/-- A slot after a frame is begun was there before, or is the one that the frame is fetched into. -/
theorem State.begun_slot {s : State} {e : FetchEntry} {i : Nat} {u : RingSlot}
    (h : some u ∈ (s.begun e i).ring.slots) : some u ∈ s.ring.slots ∨
      u = { state := .filling, junction := e.junction, index := e.fetchIndex, blocks := 0, data := [] } := by
  rcases List.mem_or_eq_of_mem_set h with h | h
  · exact .inl h
  · exact .inr (Option.some.inj h)

/-- The slots of junction `n` after a frame is begun, where none of its entries has unfetched frames. -/
theorem State.beginFrame_slot_of_fetched {s : State} {n : JunctionNumber} {u : RingSlot}
    (hfetched : ∀ e ∈ s.engine.entries, e.junction = n → e.needed ≤ e.fetchIndex) (hn : u.junction = n)
    (h : some u ∈ s.beginFrame.ring.slots) : some u ∈ s.ring.slots := by
  rcases s.beginFrame_cases with hsame | ⟨e, i, he, hlt, hbegun⟩
  · rwa [hsame] at h
  · rw [hbegun] at h
    refine (State.begun_slot h).resolve_right fun hu => ?_
    have := hfetched e he (by rw [← hn, hu])
    omega

/-- Its entries stay as they are. -/
theorem State.beginFrame_entry_of_fetched {s : State} {n : JunctionNumber} {x : FetchEntry}
    (hfetched : ∀ e ∈ s.engine.entries, e.junction = n → e.needed ≤ e.fetchIndex) (hn : x.junction = n)
    (h : x ∈ s.beginFrame.engine.entries) : x ∈ s.engine.entries := by
  rcases s.beginFrame_cases with hsame | ⟨e, i, he, hlt, hbegun⟩
  · rwa [hsame] at h
  · rw [hbegun] at h
    obtain ⟨y, hy, hyx⟩ := List.mem_map.1 h
    have hne : e.junction ≠ n := fun heq => by
      have := hfetched e he heq
      omega
    by_cases hj : y.junction = e.junction
    · rw [if_pos hj] at hyx
      rw [← hyx] at hn
      exact absurd (hj.symm.trans hn) hne
    · rw [if_neg hj] at hyx
      rwa [← hyx]

theorem State.beginFrame_has_entry {s : State} {n : JunctionNumber} (h : ∃ e ∈ s.engine.entries, e.junction = n) :
    ∃ e ∈ s.beginFrame.engine.entries, e.junction = n := by
  obtain ⟨x, hx, hn⟩ := h
  rcases s.beginFrame_cases with hsame | ⟨e, i, -, -, hbegun⟩
  · exact ⟨x, by rwa [hsame], hn⟩
  · rw [hbegun]
    exact ⟨_, List.mem_map_of_mem hx, by split <;> exact hn⟩

/-! ### The request is removed -/

theorem Ring.mem_free {r : Ring} {p : RingSlot → Bool} {u : RingSlot} :
    some u ∈ (r.free p).slots ↔ some u ∈ r.slots ∧ p u = false := by
  simp only [Ring.free, List.mem_map, Option.filter_eq_some_iff, Bool.not_eq_true']
  constructor
  · rintro ⟨_, hmem, rfl, hp⟩
    exact ⟨hmem, hp⟩
  · rintro ⟨hmem, hp⟩
    exact ⟨_, hmem, rfl, hp⟩

theorem Ring.free_kept {r : Ring} {p : RingSlot → Bool} {i : Nat} {u : RingSlot} (h : r.slots[i]? = some (some u))
    (hp : p u = false) : (r.free p).slots[i]? = some (some u) := by
  simp [Ring.free, h, hp]

theorem State.orphanWhere_of_none {s : State} (p : Request → Bool) (h : s.engine.request = none) :
    s.orphanWhere p = s := by
  rw [State.orphanWhere, h]

theorem State.removeRequest_slot {s : State} {u : RingSlot} (h : some u ∈ s.removeRequest.ring.slots) :
    some u ∈ s.ring.slots ∧ u.state ≠ .filling := by
  obtain ⟨hmem, hfill⟩ := Ring.mem_free.1 h
  exact ⟨hmem, by simpa [RingSlot.isFilling] using hfill⟩

/-! ### The alternate promo (R169) -/

/-- The part as its engine looks for a frame, once junction `r.number` has switched to its alternate. -/
def State.switched (s : State) (r : Junction) (alt : Promo) : State :=
  let e := restartEntry r.number alt.clip (r.fields.rin + r.fields.hold + r.fields.rout)
  let u : State := (s.removeRequest.updateJunction r.number (fun x => { x with promo := .alternate })).freeSlots
    (fun t => t.junction == r.number)
  let v : State := { u with engine := u.engine.updateEntry r.number (fun _ => e) }
  (v.updateClaim r.number .record (fun c => { c with campaign := alt.campaign })).post .promoSwitched (some r.number)
    (detailOf SwitchCause.store.code) (alt.campaign.setWidth 24)

theorem State.switchStore_eq (s : State) (r : Junction) (alt : Promo) :
    s.switchStore r alt = (s.switched r alt).beginFrame := rfl

theorem State.switched_slot {s : State} {r : Junction} {alt : Promo} {u : RingSlot}
    (h : some u ∈ (s.switched r alt).ring.slots) : u.junction ≠ r.number := by
  have hmem : some u ∈ (s.removeRequest.ring.free (fun t => t.junction == r.number)).slots := h
  simpa using (Ring.mem_free.1 hmem).2

theorem State.switched_entry {s : State} {r : Junction} {alt : Promo} {e : FetchEntry}
    (h : e ∈ (s.switched r alt).engine.entries) (hn : e.junction = r.number) :
    e = restartEntry r.number alt.clip (r.fields.rin + r.fields.hold + r.fields.rout) := by
  have hmem : e ∈ (s.engine.updateEntry r.number (fun _ =>
      restartEntry r.number alt.clip (r.fields.rin + r.fields.hold + r.fields.rout))).entries := h
  rw [Engine.updateEntry_entries] at hmem
  obtain ⟨x, -, hx⟩ := List.mem_map.1 hmem
  by_cases hj : x.junction = r.number
  · rw [if_pos hj] at hx
    exact hx.symm
  · rw [if_neg hj] at hx
    rw [← hx] at hn
    exact absurd hn hj

theorem State.switched_has_entry {s : State} {r : Junction} (alt : Promo)
    (h : ∃ e ∈ s.engine.entries, e.junction = r.number) :
    ∃ e ∈ (s.switched r alt).engine.entries, e.junction = r.number := by
  obtain ⟨x, hx, hn⟩ := h
  refine ⟨_, List.mem_map_of_mem hx, ?_⟩
  rw [if_pos (by simpa using hn)]
  rfl

/-- The slots of the junction: at most the one into which frame 0 of the alternate is fetched. -/
theorem State.switchStore_slot {s : State} {r : Junction} {alt : Promo} {u : RingSlot}
    (h : some u ∈ (s.switchStore r alt).ring.slots) (hn : u.junction = r.number) :
    u.state = .filling ∧ u.index = 0 ∧ u.blocks = 0 := by
  rw [State.switchStore_eq] at h
  rcases (s.switched r alt).beginFrame_cases with hsame | ⟨e, i, he, -, hbegun⟩
  · rw [hsame] at h
    exact absurd hn (State.switched_slot h)
  · rw [hbegun] at h
    rcases State.begun_slot h with h | rfl
    · exact absurd hn (State.switched_slot h)
    · exact ⟨rfl, by rw [State.switched_entry he hn]; rfl, rfl⟩

theorem State.switchStore_kept {s : State} {r : Junction} {alt : Promo} {i : Nat} {u : RingSlot}
    (h : s.ring.slots[i]? = some (some u)) (hn : u.junction ≠ r.number) (hf : u.state ≠ .filling) :
    (s.switchStore r alt).ring.slots[i]? = some (some u) := by
  rw [State.switchStore_eq]
  refine State.beginFrame_slot ?_
  have hremoved : (s.ring.free RingSlot.isFilling).slots[i]? = some (some u) :=
    Ring.free_kept h (by simpa [RingSlot.isFilling] using hf)
  exact Ring.free_kept hremoved (by simpa using hn)

/-- The entry of the junction is started again on the alternate's clip, and its frame 0 may have been asked for. -/
theorem State.switchStore_entry {s : State} {r : Junction} {alt : Promo} {e : FetchEntry}
    (h : e ∈ (s.switchStore r alt).engine.entries) (hn : e.junction = r.number) :
    e.clip = alt.clip ∧ e.needed = r.fields.rin + r.fields.hold + r.fields.rout ∧
      (e.fetchIndex = 0 ∨ e.fetchIndex = 1 ∧ ∃ p, (s.switchStore r alt).engine.request = some p ∧
        p.junction = r.number ∧ p.clip = alt.clip ∧ p.index = 0 ∧ p.first = 0 ∧ p.count = 135) := by
  rw [State.switchStore_eq] at h ⊢
  rcases (s.switched r alt).beginFrame_cases with hsame | ⟨x, i, hx, -, hbegun⟩
  · rw [hsame] at h
    rw [State.switched_entry h hn]
    exact ⟨rfl, rfl, .inl rfl⟩
  · rw [hbegun] at h ⊢
    obtain ⟨y, hy, hye⟩ := List.mem_map.1 h
    by_cases hj : y.junction = x.junction
    · rw [if_pos hj] at hye
      rw [← hye] at hn ⊢
      have hyn : y.junction = r.number := hn
      have hxn : x.junction = r.number := hj.symm.trans hyn
      rw [State.switched_entry hy hyn]
      refine ⟨rfl, rfl, .inr ⟨rfl, _, rfl, hxn, ?_, ?_, rfl, rfl⟩⟩
      · rw [State.switched_entry hx hxn]
        rfl
      · rw [State.switched_entry hx hxn]
        rfl
    · rw [if_neg hj] at hye
      rw [← hye] at hn ⊢
      rw [State.switched_entry hy hn]
      exact ⟨rfl, rfl, .inl rfl⟩

/-! ### The end without an alternate (R167, R176) -/

theorem State.removeRequest_endRecord_slot {s : State} {n : JunctionNumber} {r : Junction} (e : Ending)
    (h : s.junction? n = some r) {u : RingSlot} (hu : some u ∈ (s.removeRequest.endRecord n e).ring.slots) :
    u.junction ≠ n := by
  intro hn
  have hj : s.removeRequest.junction? n = some r := h
  unfold State.endRecord at hu
  rw [hj] at hu
  dsimp only at hu
  have hnone : ((({ s.removeRequest with table := removeNumber n s.removeRequest.table } : State).dropClaims n).dropFetch
      n).engine.entries = s.engine.entries.filter (fun e => e.junction != n) := State.dropFetch_entries _ n
  have hmem := State.beginFrame_slot_of_fetched (n := n) (fun x hx hxn => ?_) hn hu
  · rw [State.postEnd, State.post_ring, State.dropFetch, State.orphanWhere_of_none _ rfl] at hmem
    obtain ⟨hmem, hkept⟩ := Ring.mem_free.1 hmem
    have hfilling : u.state = .filling := by simpa [hn, RingSlot.isFilling] using hkept
    exact (State.removeRequest_slot hmem).2 hfilling
  · rw [State.postEnd, State.post_engine, hnone] at hx
    have := (List.mem_filter.1 hx).2
    simp [hxn] at this

/-! ### The junction on air (R167, R161) -/

/-- The part as it looks for a frame, its fetch for junction `n` at an end. -/
def State.fetchStopped (s : State) (n : JunctionNumber) (index : Nat) : State :=
  let s := s.removeRequest
  { s with engine := s.engine.updateEntry n (fun e => { e with fetchIndex := index }) }

theorem State.refusedOnAir_eq (s : State) (n : JunctionNumber) (index : Nat) :
    s.refusedOnAir n index = ((s.fetchStopped n index).limitNeeded n index).requestRelease .promoRefused := rfl

theorem State.fetchStopped_entry {s : State} {n : JunctionNumber} {index : Nat} {e : FetchEntry}
    (h : e ∈ (s.fetchStopped n index).engine.entries) (hn : e.junction = n) : e.fetchIndex = index := by
  have hmem : e ∈ (s.engine.updateEntry n (fun e => { e with fetchIndex := index })).entries := h
  rw [Engine.updateEntry_entries] at hmem
  obtain ⟨x, -, hx⟩ := List.mem_map.1 hmem
  by_cases hj : x.junction = n
  · rw [if_pos hj] at hx
    rw [← hx]
  · rw [if_neg hj] at hx
    rw [← hx] at hn
    exact absurd hn hj

/-- The entries and slots of the junction once its needed count has fallen to the refused frame. -/
theorem State.fetchStopped_limited {s : State} {n : JunctionNumber} {index : Nat} :
    let t := (s.fetchStopped n index).limitNeeded n index
    (∀ e ∈ t.engine.entries, e.junction = n → e.needed ≤ index ∧ e.fetchIndex = e.needed) ∧
    ∀ u, some u ∈ t.ring.slots → u.junction = n → u.state ≠ .filling := by
  dsimp only
  unfold State.limitNeeded
  split
  · next hnone =>
    refine ⟨fun e he hn => ?_, fun u hu _ => (State.removeRequest_slot hu).2⟩
    simpa [hn] using List.find?_eq_none.1 hnone e he
  · next e₀ _ =>
    dsimp only
    rw [State.orphanWhere_of_none _ rfl]
    have hentries (x : FetchEntry) (hx : x ∈ ((s.fetchStopped n index).engine.updateEntry n
        (fun x => { x with needed := min e₀.needed index, fetchIndex := min x.fetchIndex (min e₀.needed index) })).entries)
        (hn : x.junction = n) : x.needed ≤ index ∧ x.fetchIndex = x.needed := by
      rw [Engine.updateEntry_entries] at hx
      obtain ⟨y, hy, hyx⟩ := List.mem_map.1 hx
      by_cases hj : y.junction = n
      · rw [if_pos hj] at hyx
        rw [← hyx, State.fetchStopped_entry hy hj]
        exact ⟨Nat.min_le_right _ _, Nat.min_eq_right (Nat.min_le_right _ _)⟩
      · rw [if_neg hj] at hyx
        rw [← hyx] at hn
        exact absurd hn hj
    refine ⟨fun x hx hn => ?_, fun u hu hn => ?_⟩
    · exact hentries x (State.beginFrame_entry_of_fetched (fun y hy hyn => (hentries y hy hyn).2.ge) hn hx) hn
    · have hmem := State.beginFrame_slot_of_fetched (fun y hy hyn => (hentries y hy hyn).2.ge) hn hu
      exact (State.removeRequest_slot (Ring.mem_free.1 hmem).1).2

/-- A request for early release touches the sequencer and the events alone. -/
theorem State.requestRelease_eq (s : State) (why : Reason) : s.requestRelease why =
    { s with sequencer := (s.requestRelease why).sequencer, reporting := (s.requestRelease why).reporting } := by
  unfold State.requestRelease
  split
  · rfl
  · split <;> rfl

/-! ### ABORT -/

theorem exec_storeAbort_requesting {s : State} {q : Request} (hst : s.engine.state = .requesting)
    (hq : s.engine.request = some q) (ho : q.orphaned = false) : exec .storeAbort s = .next (s.abortFor q) := by
  obtain ⟨-, -, -, habort⟩ := exec_link_requesting hst
  rw [habort, State.abortReply, hq]
  simp [ho]

theorem State.abortFor_primed {s : State} {q : Request} {r : Junction} (hr : s.junction? q.junction = some r)
    (hp : r.state = .primed) : s.abortFor q = s.refusedPrimed r := by
  rw [State.abortFor, hr]
  simp only [hp]

theorem State.abortFor_onAir {s : State} {q : Request} {r : Junction} (hr : s.junction? q.junction = some r)
    (hon : r.state.isOnAir = true) : s.abortFor q = s.refusedOnAir r.number q.index := by
  rw [State.abortFor, hr]
  cases h : r.state with
  | squeezeIn | hold | release => simp only [h]
  | planned | opened | locked | primed => simp [h, RecordState.isOnAir] at hon

theorem State.refusedPrimed_alternate {s : State} {r : Junction} {a : Promo} (hp : r.promo = .primary)
    (ha : r.fields.alternate = some a) : s.refusedPrimed r = s.switchStore r a := by
  rw [State.refusedPrimed, hp, ha]

theorem State.refusedPrimed_end {s : State} {r : Junction} (h : r.promo = .alternate ∨ r.fields.alternate = none) :
    s.refusedPrimed r =
      s.removeRequest.endRecord r.number { outcome := .abandoned, reason := some .promoRefused } := by
  unfold State.refusedPrimed
  split
  · next hp ha =>
    rcases h with h | h
    · simp [h] at hp
    · simp [h] at ha
  · rfl

/-- Settles O50: the alternate, the end, and the release of a junction on air. -/
theorem storeAbortActsOnJunction : Obligations.StoreAbortActsOnJunction := by
  intro s q r hst hq ho hr
  obtain ⟨-, hn⟩ := State.junction?_mem hr
  have haround (t : State) (h : exec .storeAbort s = .next t) : s.SameAround t := by
    obtain ⟨-, -, -, habort⟩ := exec_link_requesting hst
    rw [habort] at h
    cases h
    exact (Acts.abortReply s).sameAround
  have hrn : s.junction? r.number = some r := hn ▸ hr
  dsimp only
  rw [← hn]
  refine ⟨fun a hp hprimary ha => ?_, fun hp halt => ?_, fun hon hair => ?_⟩
  · have hexec : exec .storeAbort s = .next (s.switchStore r a) := by
      rw [exec_storeAbort_requesting hst hq ho, State.abortFor_primed hr hp, State.refusedPrimed_alternate hprimary ha]
    refine ⟨_, hexec, haround _ hexec, ?_, fun i v hv hvn => State.switchStore_slot (List.mem_of_getElem? hv) hvn,
      fun i v hv hvn hvf => State.switchStore_kept hv hvn hvf, fun he => ?_,
      fun e he hen => State.switchStore_entry he hen, fun k hk => ?_, ?_⟩
    · rw [State.switchStore_eq, State.junction?, State.beginFrame_table]
      exact State.junction?_updateJunction (f := fun x => { x with promo := .alternate }) hrn (fun _ => rfl)
    · rw [State.switchStore_eq]
      exact State.beginFrame_has_entry (State.switched_has_entry a he)
    · rw [State.switchStore_eq, State.claim?, State.beginFrame_publisher]
      exact State.claim?_updateClaim (s := s) (f := fun c => { c with campaign := a.campaign }) hk (fun _ => rfl)
    · intro hroom
      rw [State.switchStore_eq, State.beginFrame_reporting]
      exact State.post_posted s .promoSwitched (some r.number) _ _ hroom
  · have hexec : exec .storeAbort s =
        .next (s.removeRequest.endRecord r.number { outcome := .abandoned, reason := some .promoRefused }) := by
      rw [exec_storeAbort_requesting hst hq ho, State.abortFor_primed hr hp, State.refusedPrimed_end halt]
    have hremoved : s.removeRequest.junction? r.number = some r := hrn
    refine ⟨_, hexec, haround _ hexec, ?_, fun e he => (State.endRecord_entries _ hremoved he).1,
      fun u hu => State.removeRequest_endRecord_slot _ hrn hu, ?_⟩
    · rw [State.endRecord_spec _ hremoved]
      rfl
    · exact (State.endRecord_posted { outcome := .abandoned, reason := some .promoRefused } hremoved).of_eq rfl rfl
  · have hexec : exec .storeAbort s = .next (s.refusedOnAir r.number q.index) := by
      rw [exec_storeAbort_requesting hst hq ho, State.abortFor_onAir hr hon]
    obtain ⟨hentries, hslots⟩ := State.fetchStopped_limited (s := s) (n := r.number) (index := q.index)
    have hlimited := State.limitNeeded_eq (s.fetchStopped r.number q.index) r.number q.index
    rw [State.refusedOnAir_eq] at hexec
    generalize (s.fetchStopped r.number q.index).limitNeeded r.number q.index = u at hexec hentries hslots hlimited
    have huair : u.sequencer.onAir = some r.number := by rw [hlimited]; exact hair
    have hrelease := State.requestRelease_eq u .promoRefused
    refine ⟨_, hexec, haround _ hexec, ?_, ?_, fun i v hv hvn => ?_, fun hreason => ?_, fun hreason => ?_⟩
    · rw [hrelease, hlimited]
      rfl
    · rw [hrelease]
      exact hentries
    · rw [hrelease] at hv
      exact hslots v (List.mem_of_getElem? hv) hvn
    · have hu : u.sequencer.reason = none := by rw [hlimited]; exact hreason
      rw [State.requestRelease_first .promoRefused huair hu, hlimited]
      exact ⟨rfl, rfl⟩
    · have hu : u.sequencer.reason.isSome = true := by rw [hlimited]; exact hreason
      rw [State.requestRelease_later .promoRefused huair hu, hlimited]
      exact ⟨rfl, State.post_posted s _ _ _ _⟩

end Sys2Proof.Machine

/-! PROOFS. The halt of the engine, RESUME_FETCH, orphaned requests, and the frame that an IDLE engine begins
(R162, R168, R170, R171). -/

namespace Sys2Proof.Machine

/-! ### The no-answer limit (R168) -/

theorem State.haltFetch_eq {s : State} {q : Request} (hq : s.engine.request = some q) : s.haltFetch =
    (if q.orphaned then ({ s with engine := { s.engine with state := .halted } } : State).fillingFreed
      else { s with engine := { s.engine with state := .halted } }).raiseForJunction .fetchHalted q.junction := by
  rw [State.haltFetch, hq]
  rfl

theorem State.raiseForJunction_get (s : State) {n : AlarmName} (j : JunctionNumber) (hn : n ≠ .eventOverflow) :
    (s.raiseForJunction n j).reporting.alarms.get n = (s.reporting.alarms.get n).raise (j.setWidth 24) :=
  State.raiseAlarm_get s _ _ hn

/-! ### RESUME_FETCH (R170) -/

theorem State.frameReady_withExchange (s : State) (e : Exchange) :
    { s.frameReady with exchange := e } = ({ s with exchange := e } : State).frameReady :=
  State.beginFrame_withExchange _ e

theorem State.reissue_withExchange (s : State) (e : Exchange) :
    { s.reissue with exchange := e } = ({ s with exchange := e } : State).reissue := by
  cases hq : s.engine.request with
  | none => simp [State.reissue, hq]
  | some q =>
    cases hf : s.engine.refetch with
    | some b => simp [State.reissue, hq, hf]
    | none =>
      have hblocks : ({ s with exchange := e } : State).blocksReceived = s.blocksReceived := rfl
      by_cases hlt : s.blocksReceived < blocksPerFrame
      · simp [State.reissue, hq, hf, hblocks, hlt]
      · simp [State.reissue, hq, hf, hblocks, hlt, State.frameReady_withExchange]

/-- `s` with its retry count cleared, as an accepted RESUME_FETCH begins. -/
def State.retryCleared (s : State) : State := { s with engine := { s.engine with retry := 0 } }

theorem State.resume_eq {s : State} {q : Request} (hq : s.engine.request = some q) : s.resume =
    if q.orphaned then s.retryCleared.requestOver
    else if s.engine.condemned then s.retryCleared.damage .parity
    else s.retryCleared.reissue := by
  have hcleared : s.retryCleared.orphaned = q.orphaned := State.orphaned_eq hq
  rw [← hcleared]
  rfl

theorem exec_resumeFetch {s : State} {p : List Byte} {crc : Half} (h : s.Takes .resumeFetch p crc) :
    exec (.resumeFetch p crc) s = .next s.resumeOrder.sent := exec_taken h

theorem exec_resumeFetch_halted {s : State} {p : List Byte} {crc : Half} (h : s.Takes .resumeFetch p crc)
    (hst : s.engine.state = .halted) : exec (.resumeFetch p crc) s =
      .next { s.resume with exchange := .replying { status := .accepted, payload := [] } } := by
  rw [exec_resumeFetch h, State.resumeOrder, if_pos hst]
  rfl

/-! ### Orphaned requests (R171) -/

theorem State.endOrphan_eq (s : State) : s.endOrphan = s.fillingFreed.requestOver := rfl

theorem State.endBrokenRun_orphaned {s : State} {q : Request} (hq : s.engine.request = some q)
    (ho : q.orphaned = true) : s.endBrokenRun = s.fillingFreed.requestOver :=
  if_pos ((State.orphaned_eq hq).trans ho)

theorem State.endKeptRun_orphaned {s : State} {q : Request} (hq : s.engine.request = some q)
    (ho : q.orphaned = true) : s.endKeptRun = s.fillingFreed.requestOver :=
  if_pos ((State.orphaned_eq hq).trans ho)

/-- An orphaned request in REQUESTING ends with each of the four words. -/
theorem exec_orphaned_requesting {s : State} {q : Request} (hq : s.engine.request = some q) (ho : q.orphaned = true)
    (hst : s.engine.state = .requesting) {w : Instr}
    (hw : w ∈ [Instr.storeEnd, .storeDisconnect, .storeRetry, .storeAbort]) :
    exec w s = .next s.fillingFreed.requestOver := by
  obtain ⟨hend, hdisconnect, hretry, habort⟩ := exec_link_requesting hst
  have hbroken := State.endBrokenRun_orphaned hq ho
  simp only [List.mem_cons, List.not_mem_nil, or_false] at hw
  rcases hw with rfl | rfl | rfl | rfl
  · rw [hend, hbroken]
  · rw [hdisconnect, hbroken]
  · exact hretry.trans (congrArg _ (if_pos ((State.orphaned_eq hq).trans ho)))
  · rw [habort, State.abortReply, hq]
    simp only [ho, if_true]
    rfl

/-- In RECEIVING a broken run ends with END or DISCONNECT alone. -/
theorem exec_orphaned_receiving {s : State} {q : Request} (hq : s.engine.request = some q) (ho : q.orphaned = true)
    (hst : s.engine.state = .receiving) {w : Instr}
    (hw : w ∈ [Instr.storeEnd, .storeDisconnect, .storeRetry, .storeAbort])
    (hb : s.engine.broken = false ∨ w = .storeEnd ∨ w = .storeDisconnect) :
    exec w s = .next s.fillingFreed.requestOver := by
  obtain ⟨hend, hdisconnect, hretry, habort⟩ := exec_link_receiving hst
  have hbroken := State.endBrokenRun_orphaned hq ho
  have hkept := State.endKeptRun_orphaned hq ho
  rw [hbroken, hkept, ite_self] at hend hdisconnect
  rw [hbroken] at hretry habort
  simp only [List.mem_cons, List.not_mem_nil, or_false] at hw
  rcases hw with rfl | rfl | rfl | rfl
  · exact hend
  · exact hdisconnect
  · have hb' : s.engine.broken = false := by simpa using hb
    rw [hretry, if_neg (by simp [hb'])]
  · have hb' : s.engine.broken = false := by simpa using hb
    rw [habort, if_neg (by simp [hb'])]

theorem State.orphanRequest_of_request {s : State} {q : Request} (hq : s.engine.request = some q)
    (ho : q.orphaned = false) :
    let marked := { s with engine := { s.engine with request := some { q with orphaned := true } } }
    (s.engine.state = .requesting ∨ s.engine.state = .receiving → s.orphanRequest = marked) ∧
    (s.engine.state = .halted → s.orphanRequest = marked.fillingFreed) ∧
    (s.engine.state = .backoff → s.orphanRequest = { s.fillingFreed with
      engine := { s.engine with state := .idle, request := none, broken := false } }) := by
  dsimp only
  refine ⟨?_, fun h => ?_, fun h => ?_⟩
  · rintro (h | h) <;> simp [State.orphanRequest, hq, ho, h]
  · simp only [State.orphanRequest, hq, ho, h]
    rfl
  · simp only [State.orphanRequest, hq, ho, h]
    rfl

/-! ### The frame that is begun (R162, R172) -/

/-- Nothing is begun where the engine is not IDLE, every frame is fetched, or no slot is FREE. -/
theorem State.beginFrame_none {s : State} (h : s.engine.state ≠ .idle ∨
    (∀ e ∈ s.engine.entries, e.needed ≤ e.fetchIndex) ∨ ∀ i : Nat, s.ring.slots[i]? ≠ some none) :
    s.beginFrame = s := by
  unfold State.beginFrame
  split
  · next hidle =>
    split
    · next e i he hi =>
      exfalso
      rcases h with h | h | h
      · exact h hidle
      · have hlt : e.fetchIndex < e.needed := by simpa [FetchEntry.unfetched] using List.find?_some he
        have := h e (List.mem_of_find?_eq_some he)
        omega
      · simp [lowestFree_eq_none 0 h] at hi
    · rfl
  · rfl

/-- Settles O51: the halt, the resumption, the marks, the ends, and the beginnings. -/
theorem haltAndResume : Obligations.HaltAndResume := by
  refine ⟨fun s q hq hst => ?_, fun s p crc htakes => ⟨fun hst => ?_, fun q hst hq => ?_⟩,
    fun s q hq ho => State.orphanRequest_of_request hq ho, fun s q hq ho w hw =>
      ⟨fun hst => exec_orphaned_requesting hq ho hst hw, fun hst hb => exec_orphaned_receiving hq ho hst hw hb⟩,
    fun s => ⟨fun e i hidle he hi hlow => ?_, State.beginFrame_none⟩⟩
  · obtain ⟨hlimit, -⟩ := exec_link_onLink hst
    refine ⟨_, hlimit, (Acts.haltFetch s).sameAround, ?_⟩
    rw [State.haltFetch_eq hq, State.raiseForJunction_get _ _ (by decide)]
    refine ⟨?_, fun ho => ?_, fun ho => ?_, rfl, rfl⟩
    · cases q.orphaned <;> rfl
    · rw [ho]
      rfl
    · rw [ho]
      rfl
  · rw [exec_resumeFetch htakes, State.resumeOrder, if_neg hst, State.refuse_sent]
  · dsimp only
    rw [exec_resumeFetch_halted htakes hst, State.resume_eq hq]
    refine ⟨fun ho => ?_, fun ho hc => ?_, fun ho hc => ?_⟩
    · rw [if_pos ho]
      exact congrArg _ (State.beginFrame_withExchange _ _)
    · rw [if_neg (by simp [ho]), if_neg (by simp [hc]), State.reissue_withExchange]
      exact State.reissue_asksAgain hq
    · rw [if_neg (by simp [ho]), if_pos hc]
      obtain ⟨hring, hposted⟩ := State.damage_spec s.retryCleared .parity (q := q) hq
      exact ⟨_, rfl, rfl, hring, hposted.of_eq rfl rfl⟩
  · rw [State.beginFrame_begun hidle he ((lowestFree_eq_some 0 hi hlow).trans (by rw [Nat.zero_add]))]
    rfl

end Sys2Proof.Machine

/-! PROOFS. The Frame Ring's advance (R174, R175). -/

namespace Sys2Proof.Machine

/-! ### Slots that are freed and changed -/

theorem Ring.free_freed {r : Ring} {p : RingSlot → Bool} {i : Nat} {u : RingSlot} (h : r.slots[i]? = some (some u))
    (hp : p u = true) : (r.free p).slots[i]? = some none := by
  simp [Ring.free, h, hp]

theorem Ring.update_slot {r : Ring} (p : RingSlot → Bool) (f : RingSlot → RingSlot) {i : Nat} {u : RingSlot}
    (h : r.slots[i]? = some (some u)) : (r.update p f).slots[i]? = some (some (if p u then f u else u)) := by
  simp [Ring.update, h]

theorem Ring.update_free {r : Ring} (p : RingSlot → Bool) (f : RingSlot → RingSlot) {i : Nat}
    (h : r.slots[i]? = some none) : (r.update p f).slots[i]? = some none := by
  simp [Ring.update, h]

/-- A SHOWN slot stays when the engine orphans a request. -/
theorem State.orphanRequest_shown {s : State} {i : Nat} {u : RingSlot} (h : s.ring.slots[i]? = some (some u))
    (hu : u.state = .shown) : s.orphanRequest.ring.slots[i]? = some (some u) := by
  have hfreed : (s.ring.free RingSlot.isFilling).slots[i]? = some (some u) :=
    Ring.free_kept h (by simp [RingSlot.isFilling, hu])
  unfold State.orphanRequest
  split
  · exact h
  · split
    · exact h
    · dsimp only
      cases s.engine.state with
      | halted | backoff => exact hfreed
      | idle | requesting | receiving => exact h

theorem State.orphanWhere_shown {s : State} (p : Request → Bool) {i : Nat} {u : RingSlot}
    (h : s.ring.slots[i]? = some (some u)) (hu : u.state = .shown) :
    (s.orphanWhere p).ring.slots[i]? = some (some u) := by
  unfold State.orphanWhere
  split
  · split
    · exact State.orphanRequest_shown h hu
    · exact h
  · exact h

/-- A SHOWN slot stays when a needed count falls (R161). -/
theorem State.limitNeeded_shown {s : State} (j : JunctionNumber) (n : Nat) {i : Nat} {u : RingSlot}
    (h : s.ring.slots[i]? = some (some u)) (hu : u.state = .shown) :
    (s.limitNeeded j n).ring.slots[i]? = some (some u) := by
  unfold State.limitNeeded
  split
  · exact h
  · refine State.beginFrame_slot (State.orphanWhere_shown _ ?_ hu)
    exact Ring.free_kept h (by simp [hu])

/-- The needed count of a junction after it fell. -/
theorem State.limitNeeded_exact {s : State} {j : JunctionNumber} {n : Nat} {e x : FetchEntry}
    (he : s.engine.entries.find? (fun e => e.junction == j) = some e)
    (hx : x ∈ (s.limitNeeded j n).engine.entries) (hj : x.junction = j) : x.needed = min e.needed n := by
  unfold State.limitNeeded at hx
  rw [he] at hx
  dsimp only at hx
  obtain ⟨y, hy, hjunction, hneeded⟩ := State.beginFrame_entries hx
  rw [State.orphanWhere_entries] at hy
  have hupdated : y ∈ (s.engine.updateEntry j
    (fun x => { x with needed := min e.needed n, fetchIndex := min x.fetchIndex (min e.needed n) })).entries := hy
  rw [Engine.updateEntry_entries] at hupdated
  obtain ⟨z, -, hz⟩ := List.mem_map.1 hupdated
  by_cases hzj : z.junction = j
  · rw [if_pos hzj] at hz
    rw [← hneeded, ← hz]
  · rw [if_neg hzj] at hz
    rw [← hz, hj] at hjunction
    exact absurd hjunction hzj

/-! ### READY, DAMAGED, and not there -/

theorem State.ringAdvance_ready {s : State} {n : JunctionNumber} {u : RingSlot} (hair : s.ring.onAir = some n)
    (hfrozen : s.ring.frozen = false) (hfresh : s.ring.fresh = false)
    (hu : s.ring.find? (fun t => t.junction == n && t.index == s.ring.next) = some u) (h : u.state = .ready) :
    s.ringAdvance = s.showNext n := by
  simp [State.ringAdvance, hair, hfrozen, hfresh, hu, h]

theorem State.ringAdvance_damaged {s : State} {n : JunctionNumber} {u : RingSlot} (hair : s.ring.onAir = some n)
    (hfrozen : s.ring.frozen = false) (hfresh : s.ring.fresh = false)
    (hu : s.ring.find? (fun t => t.junction == n && t.index == s.ring.next) = some u) (h : u.state = .damaged) :
    s.ringAdvance = s.dropNext n := by
  simp [State.ringAdvance, hair, hfrozen, hfresh, hu, h]

theorem State.ringAdvance_slips {s : State} {n : JunctionNumber} (hair : s.ring.onAir = some n)
    (hfrozen : s.ring.frozen = false) (hfresh : s.ring.fresh = false)
    (h : s.ring.find? (fun t => t.junction == n && t.index == s.ring.next) = none ∨
      ∃ u, s.ring.find? (fun t => t.junction == n && t.index == s.ring.next) = some u ∧ u.state = .filling) :
    s.ringAdvance = s.slip n := by
  rcases h with hu | ⟨u, hu, h⟩
  · simp [State.ringAdvance, hair, hfrozen, hfresh, hu]
  · simp [State.ringAdvance, hair, hfrozen, hfresh, hu, h]

/-- The next frame is READY: it is shown, and the slot that was SHOWN is freed. -/
theorem State.showNext_spec (s : State) (n : JunctionNumber) :
    let t := s.showNext n
    t.reporting = s.reporting ∧ t.ring.shown = s.ring.next ∧ t.ring.next = s.ring.next + 1 ∧
      t.ring.consecutive = 0 ∧ t.ring.slips = s.ring.slips ∧ t.ring.drops = s.ring.drops ∧
      ∀ (i : Nat) (v : RingSlot), s.ring.slots[i]? = some (some v) →
        (v.state = .shown → t.ring.Freed i) ∧
        (v.state ≠ .shown → v.junction = n ∧ v.index = s.ring.next →
          t.ring.slots[i]? = some (some { v with state := .shown })) ∧
        (v.state ≠ .shown → ¬ (v.junction = n ∧ v.index = s.ring.next) → t.ring.slots[i]? = some (some v)) := by
  dsimp only
  unfold State.showNext
  dsimp only
  refine ⟨State.beginFrame_reporting _, ?_, ?_, ?_, ?_, ?_, fun i v hv => ⟨fun hs => ?_, fun hs hdue => ?_, fun hs hdue => ?_⟩⟩
  · rw [State.beginFrame_moves]
    rfl
  · rw [State.beginFrame_moves]
    rfl
  · rw [State.beginFrame_moves]
  · rw [State.beginFrame_moves]
    rfl
  · rw [State.beginFrame_moves]
    rfl
  · exact State.beginFrame_freed (Ring.update_free _ _ (Ring.free_freed hv (by simp [hs])))
  · have hkept := Ring.free_kept (p := fun t => t.state == .shown) hv (by simpa using hs)
    refine State.beginFrame_slot ((Ring.update_slot _ _ hkept).trans ?_)
    rw [if_pos (by simpa [Ring.free] using hdue)]
  · have hkept := Ring.free_kept (p := fun t => t.state == .shown) hv (by simpa using hs)
    refine State.beginFrame_slot ((Ring.update_slot _ _ hkept).trans ?_)
    rw [if_neg (by simpa [Ring.free] using hdue)]

/-- The next frame is DAMAGED: it is freed and dropped. -/
theorem State.dropNext_spec (s : State) (n : JunctionNumber) :
    let t := s.dropNext n
    t.reporting = s.reporting ∧ t.ring.shown = s.ring.shown ∧ t.ring.next = s.ring.next + 1 ∧
      t.ring.consecutive = 0 ∧ t.ring.slips = s.ring.slips ∧ t.ring.drops = min (s.ring.drops + 1) 65535 ∧
      ∀ (i : Nat) (v : RingSlot), s.ring.slots[i]? = some (some v) →
        (v.junction = n ∧ v.index = s.ring.next → t.ring.Freed i) ∧
        (¬ (v.junction = n ∧ v.index = s.ring.next) → t.ring.slots[i]? = some (some v)) := by
  dsimp only
  unfold State.dropNext
  dsimp only
  refine ⟨State.beginFrame_reporting _, ?_, ?_, ?_, ?_, ?_, fun i v hv => ⟨fun hdue => ?_, fun hdue => ?_⟩⟩
  · rw [State.beginFrame_moves]
    rfl
  · rw [State.beginFrame_moves]
    rfl
  · rw [State.beginFrame_moves]
  · rw [State.beginFrame_moves]
    rfl
  · rw [State.beginFrame_moves]
    rfl
  · exact State.beginFrame_freed (Ring.free_freed hv (by simpa using hdue))
  · exact State.beginFrame_slot (Ring.free_kept hv (by simpa using hdue))

/-! ### The promo fails (R175) -/

/-- `s` with one more slip counted. -/
def State.slipped (s : State) : State :=
  { s with ring := { s.ring with slips := min (s.ring.slips + 1) 65535, consecutive := s.ring.consecutive + 1 } }

theorem State.slip_few {s : State} (n : JunctionNumber) (h : s.ring.consecutive < 5) : s.slip n = s.slipped :=
  if_neg (by show ¬ 6 ≤ s.ring.consecutive + 1; omega)

theorem State.slip_sixth {s : State} (n : JunctionNumber) (h : 5 ≤ s.ring.consecutive) :
    s.slip n = s.slipped.promoFailure n := if_pos (Nat.succ_le_succ h)

/-- An event leaves every alarm but EVENT_OVERFLOW as it was. -/
theorem State.post_get {n : AlarmName} (s : State) (k : EventKind) (j : Option JunctionNumber) (c v : BitVec 24)
    (hn : n ≠ .eventOverflow) : (s.post k j c v).reporting.alarms.get n = s.reporting.alarms.get n := by
  by_cases h : s.reporting.events.length < eventCapacity
  · rw [State.post_reporting, Reporting.post_room h]
  · have hfull : (s.post k j c v).reporting = s.reporting.raise .eventOverflow _ := if_neg h
    rw [hfull, Reporting.raise_get_other _ _ hn]

theorem State.requestRelease_get {n : AlarmName} (s : State) (why : Reason) (hn : n ≠ .eventOverflow) :
    (s.requestRelease why).reporting.alarms.get n = s.reporting.alarms.get n := by
  unfold State.requestRelease
  split
  · rfl
  · split
    · rfl
    · exact State.post_get s _ _ _ _ hn

/-- The failed promo, as its fetch is to be stopped. -/
def State.promoFailed (s : State) (n : JunctionNumber) : State :=
  ({ s with ring := { s.ring with frozen := true } } : State).raiseForJunction .promoFailed n

theorem State.promoFailure_eq (s : State) (n : JunctionNumber) :
    s.promoFailure n = ((s.promoFailed n).stopFetching n).requestRelease .promoFailure := rfl

theorem State.stopFetching_eq (s : State) (n : JunctionNumber) : s.stopFetching n =
    { s with engine := (s.stopFetching n).engine, ring := (s.stopFetching n).ring } := by
  unfold State.stopFetching
  split
  · rfl
  · exact State.limitNeeded_eq _ _ _

theorem State.stopFetching_moves (s : State) (n : JunctionNumber) : s.ring.SlotsMoved (s.stopFetching n).ring := by
  unfold State.stopFetching
  split
  · exact Ring.SlotsMoved.refl _
  · exact State.limitNeeded_moves _ _ _

theorem State.stopFetching_shown {s : State} (n : JunctionNumber) {i : Nat} {u : RingSlot}
    (h : s.ring.slots[i]? = some (some u)) (hu : u.state = .shown) :
    (s.stopFetching n).ring.slots[i]? = some (some u) := by
  unfold State.stopFetching
  split
  · exact h
  · exact State.limitNeeded_shown _ _ h hu

theorem State.stopFetching_needed {s : State} {n : JunctionNumber} {e x : FetchEntry}
    (he : s.engine.entries.find? (fun e => e.junction == n) = some e) (hx : x ∈ (s.stopFetching n).engine.entries)
    (hn : x.junction = n) : x.needed = min e.needed e.fetchIndex := by
  rw [State.stopFetching, he] at hx
  exact State.limitNeeded_exact he hx hn

theorem State.promoFailure_spec (s : State) (n : JunctionNumber) :
    let t := s.promoFailure n
    t.ring.frozen = true ∧ t.ring.shown = s.ring.shown ∧ t.ring.next = s.ring.next ∧ t.ring.slips = s.ring.slips ∧
      (∀ (i : Nat) (v : RingSlot), s.ring.slots[i]? = some (some v) → v.state = .shown →
        t.ring.slots[i]? = some (some v)) ∧
      (∀ e, s.engine.entries.find? (fun e => e.junction == n) = some e →
        ∀ e' ∈ t.engine.entries, e'.junction = n → e'.needed = min e.needed e.fetchIndex) ∧
      (t.reporting.alarms.get .promoFailed).flag = true ∧
      (t.reporting.alarms.get .promoFailed).detail = some (n.setWidth 24) ∧
      (s.sequencer.onAir = some n → s.sequencer.reason = none →
        t.sequencer = { s.sequencer with reason := some .promoFailure }) := by
  have hflag : ((s.promoFailed n).reporting.alarms.get .promoFailed).flag = true ∧
      ((s.promoFailed n).reporting.alarms.get .promoFailed).detail = some (n.setWidth 24) := by
    rw [State.promoFailed, State.raiseForJunction_get _ _ (by decide)]
    exact ⟨rfl, rfl⟩
  have hring : (s.promoFailed n).ring = { s.ring with frozen := true } := rfl
  have hstopped := State.stopFetching_eq (s.promoFailed n) n
  have hmoves := State.stopFetching_moves (s.promoFailed n) n
  have hshown (i : Nat) (v : RingSlot) (hv : s.ring.slots[i]? = some (some v)) (hs : v.state = .shown) :=
    State.stopFetching_shown (s := s.promoFailed n) n hv hs
  have hneeded (e : FetchEntry) (he : s.engine.entries.find? (fun e => e.junction == n) = some e) (x : FetchEntry) :=
    State.stopFetching_needed (s := s.promoFailed n) (x := x) he
  dsimp only
  rw [State.promoFailure_eq]
  generalize (s.promoFailed n).stopFetching n = u at hstopped hmoves hshown hneeded
  have hrelease := State.requestRelease_eq u .promoFailure
  have hreported : ((u.requestRelease .promoFailure).reporting.alarms.get .promoFailed).flag = true ∧
      ((u.requestRelease .promoFailure).reporting.alarms.get .promoFailed).detail = some (n.setWidth 24) := by
    rw [State.requestRelease_get u _ (by decide), hstopped]
    exact hflag
  refine ⟨?_, ?_, ?_, ?_, fun i v hv hs => ?_, fun e he x hx hn => ?_, hreported.1, hreported.2, fun hair hreason => ?_⟩
  · rw [hrelease, hmoves]
    rfl
  · rw [hrelease, hmoves]
    rfl
  · rw [hrelease, hmoves]
    rfl
  · rw [hrelease, hmoves]
    rfl
  · rw [hrelease]
    exact hshown i v hv hs
  · rw [hrelease] at hx
    exact hneeded e he x hx hn
  · have huair : u.sequencer.onAir = some n := by rw [hstopped]; exact hair
    have hureason : u.sequencer.reason = none := by rw [hstopped]; exact hreason
    rw [State.requestRelease_first .promoFailure huair hureason, hstopped]
    rfl

/-- Settles O53: by the state of the slot that is due. -/
theorem ringAdvances : Obligations.RingAdvances := by
  intro s b x n hair
  have hop : s.boundaryOp b x .ring = s.ringAdvance := rfl
  dsimp only
  rw [hop]
  refine ⟨fun hfrozen => ?_, fun hfrozen hfresh => ?_, fun hfrozen hfresh => ?_⟩
  · simp [State.ringAdvance, hair, hfrozen]
  · simp [State.ringAdvance, hair, hfrozen, hfresh]
  · refine ⟨fun u hu hready => ?_, fun u hu hdamaged => ?_, fun h h5 => ?_, fun h h5 => ?_⟩
    · rw [State.ringAdvance_ready hair hfrozen hfresh hu hready]
      exact s.showNext_spec n
    · rw [State.ringAdvance_damaged hair hfrozen hfresh hu hdamaged]
      exact s.dropNext_spec n
    · rw [State.ringAdvance_slips hair hfrozen hfresh h, State.slip_few n h5]
      rfl
    · rw [State.ringAdvance_slips hair hfrozen hfresh h, State.slip_sixth n h5]
      exact s.slipped.promoFailure_spec n

end Sys2Proof.Machine

/-! PROOFS. The Marker Unit: how captures are taken and handed over (Chapter 6). -/

namespace Sys2Proof.Machine

/-! ### Taking a capture (R102, R104, R106) -/

/-- A capture that meets the record `rec` is discarded, and the loss is reported. -/
def State.Loses (s : State) (rec : CaptureRecord) : Prop :=
  ∃ held, s.markers.get rec = some held ∧ held.overwrite = false

theorem State.takeCapture_marked {s : State} {rec : CaptureRecord} {held : Capture} (src : MarkerSource)
    (at_ from_ : Frame) (h : s.markers.get rec = some held) (ho : held.overwrite = true) :
    s.takeCapture rec src at_ from_ = s := by
  simp [State.takeCapture, h, ho]

theorem State.takeCapture_overwrites {s : State} {rec : CaptureRecord} {held : Capture} (src : MarkerSource)
    (at_ from_ : Frame) (h : s.markers.get rec = some held) (ho : held.overwrite = false) :
    s.takeCapture rec src at_ from_ =
      ({ s with markers := s.markers.set rec (some { held with overwrite := true }) } : State).raiseAlarm
        .markerOverwrite (detailOf src.code) none := by
  simp [State.takeCapture, h, ho]

theorem State.takeCapture_reporting {s : State} {rec : CaptureRecord} (src : MarkerSource) (at_ from_ : Frame) :
    (¬ s.Loses rec → (s.takeCapture rec src at_ from_).reporting = s.reporting) ∧
    (s.Loses rec → ((s.takeCapture rec src at_ from_).reporting.alarms.get .markerOverwrite).flag = true ∧
      ((s.takeCapture rec src at_ from_).reporting.alarms.get .markerOverwrite).detail =
        some (detailOf src.code)) := by
  refine ⟨fun h => ?_, ?_⟩
  · cases hrec : s.markers.get rec with
    | none => rw [State.takeCapture_taken src at_ from_ hrec]
    | some held =>
      have ho : held.overwrite = true := Bool.eq_true_of_not_eq_false fun ho => h ⟨held, hrec, ho⟩
      rw [State.takeCapture_marked src at_ from_ hrec ho]
  · rintro ⟨held, hrec, ho⟩
    rw [State.takeCapture_overwrites src at_ from_ hrec ho, State.raiseAlarm_get _ _ _ (by decide)]
    exact ⟨rfl, rfl⟩

/-- The persistence counts are not the records'. -/
theorem Markers.set_counts (m : Markers) (rec : CaptureRecord) (c : Option Capture) :
    (m.set rec c).startCount = m.startCount ∧ (m.set rec c).releaseCount = m.releaseCount := by
  cases rec <;> exact ⟨rfl, rfl⟩

theorem State.takeCapture_counts (s : State) (rec : CaptureRecord) (src : MarkerSource) (at_ from_ : Frame) :
    (s.takeCapture rec src at_ from_).markers.startCount = s.markers.startCount ∧
      (s.takeCapture rec src at_ from_).markers.releaseCount = s.markers.releaseCount := by
  unfold State.takeCapture
  split
  · exact Markers.set_counts _ _ _
  · split
    · exact ⟨rfl, rfl⟩
    · exact Markers.set_counts _ _ _

/-! ### Marker lines (R101, R102) -/

theorem exec_lineEdge (s : State) (i : Fin 4) (l : Level) : exec (.lineEdgeSettled i l) s =
    if s.markerPins.get i = l then .next s
    else .next (({ s with markerPins := s.markerPins.set i l } : State).lineEdge i l) := rfl

theorem State.lineEdge_none {s : State} (i : Fin 4) (l : Level) (h : s.config = none ∨ s.timing.hfValid = false) :
    s.lineEdge i l = s := by
  unfold State.lineEdge
  split
  · rfl
  · next hc =>
    split
    · rfl
    · have hvalid : s.timing.hfValid = false := h.resolve_left (by simp [hc])
      exact if_neg (by simp [hvalid])

theorem State.lineEdge_other {s : State} {c : Configuration} (i : Fin 4) (l : Level) (hc : s.config = some c)
    (h : c.roles.get i = .unused ∨ l ≠ (c.edges.get i).level) : s.lineEdge i l = s := by
  unfold State.lineEdge
  rw [hc]
  dsimp only
  split
  · rfl
  · next hfeeds =>
    refine if_neg fun hedge => ?_
    rcases h with h | h
    · simp [h, LineRole.feeds] at hfeeds
    · exact h hedge.1

theorem LineRole.feeds_eq_some {role : LineRole} {i : Fin 4} {rec : CaptureRecord}
    (h : role = .start ∧ rec = .start (lineSource i) ∨ role = .release ∧ rec = .release) :
    role.feeds i = some rec := by
  rcases h with ⟨rfl, rfl⟩ | ⟨rfl, rfl⟩ <;> rfl

theorem State.lineEdge_active {s : State} {c : Configuration} {i : Fin 4} {l : Level} {rec : CaptureRecord}
    (hc : s.config = some c) (hfeeds : (c.roles.get i).feeds i = some rec) (hl : l = (c.edges.get i).level)
    (hvalid : s.timing.hfValid = true) :
    s.lineEdge i l = s.takeCapture rec (lineSource i) s.timing.hf s.timing.hf := by
  have hhf : s.hf = s.timing.hf := if_pos hvalid
  rw [State.lineEdge, hc]
  dsimp only
  rw [hfeeds, hhf]
  exact if_pos ⟨hl, hvalid⟩

/-! ### In-band codes (R103, R104) -/

theorem exec_markerPacket (s : State) (code check : Half) :
    (s.config = none ∨ s.markers.judged = false ∨ check ≠ crc16 (halfBytes code) →
      exec (.markerPacket code check) s = .next s) ∧
    ∀ c, s.config = some c → check = crc16 (halfBytes code) → exec (.markerPacket code check) s =
      .next { s with markers := s.markers.packet c.startCode c.releaseCode code } := by
  have hdispatch : exec (.markerPacket code check) s = execMarkerPacket code check s := rfl
  rw [hdispatch, execMarkerPacket]
  refine ⟨fun h => ?_, fun c hc hcheck => ?_⟩
  · split
    · next hc =>
      split
      · next hcheck =>
        have hjudged : s.markers.judged = false :=
          (h.resolve_left (by simp [hc])).resolve_right (not_not.2 hcheck.symm)
        simp [Markers.packet, hjudged]
      · rfl
    · rfl
  · rw [hc]
    exact if_pos hcheck.symm

/-- A frame that carries its code for the third time takes a capture of the frame two before it. -/
def State.captureCode (s : State) (rec : CaptureRecord) (count : Nat) (seen : Bool) (ended : Frame) : State :=
  if count = 2 ∧ seen then s.takeCapture rec .inBand (ended - 2) ended else s

/-- `s` with both persistence counts stepped. -/
def State.counted (s : State) : State :=
  { s with markers := { s.markers with
    startCount := persist s.markers.startCount s.markers.startSeen
    releaseCount := persist s.markers.releaseCount s.markers.releaseSeen } }

theorem State.judgeFrame_eq {s : State} (ended : Frame) (h : s.markers.judged = true) : s.judgeFrame ended =
    (s.counted.captureCode (.start .inBand) s.markers.startCount s.markers.startSeen ended).captureCode .release
      s.markers.releaseCount s.markers.releaseSeen ended := by
  rw [State.judgeFrame]
  exact if_pos h

theorem State.captureCode_frame (s : State) (rec : CaptureRecord) (count : Nat) (seen : Bool) (ended : Frame) :
    let t := s.captureCode rec count seen ended
    t = { s with markers := t.markers, reporting := t.reporting } ∧
      t.markers.startCount = s.markers.startCount ∧ t.markers.releaseCount = s.markers.releaseCount ∧
      ∀ other, other ≠ rec → t.markers.get other = s.markers.get other := by
  dsimp only
  unfold State.captureCode
  split
  · obtain ⟨hframe, hothers⟩ := s.takeCapture_frame rec .inBand (ended - 2) ended
    obtain ⟨hstart, hrelease⟩ := s.takeCapture_counts rec .inBand (ended - 2) ended
    exact ⟨hframe, hstart, hrelease, hothers⟩
  · exact ⟨rfl, rfl, rfl, fun _ _ => rfl⟩

theorem State.captureCode_get (s : State) (rec : CaptureRecord) (count : Nat) (seen : Bool) (ended : Frame) :
    let t := s.captureCode rec count seen ended
    (¬ (count = 2 ∧ seen = true) → t.markers.get rec = s.markers.get rec) ∧
    (count = 2 ∧ seen = true → s.markers.get rec = none → t.markers.get rec = some
      { source := .inBand, captureFrame := ended - 2, availability := ended, overwrite := false }) ∧
    ∀ held, count = 2 ∧ seen = true → s.markers.get rec = some held →
      t.markers.get rec = some { held with overwrite := true } := by
  dsimp only
  unfold State.captureCode
  refine ⟨fun h => by rw [if_neg h], fun h hnone => ?_, fun held h hheld => ?_⟩
  · rw [if_pos h, State.takeCapture_taken _ _ _ hnone]
    exact (Markers.get_set _ _ _ _).trans (if_pos rfl)
  · rw [if_pos h]
    exact State.takeCapture_lost _ _ _ hheld

/-- What a judgement says of a capture that it discards. -/
def State.Overwritten (s : State) : Prop :=
  (s.reporting.alarms.get .markerOverwrite).flag = true ∧
    (s.reporting.alarms.get .markerOverwrite).detail = some (detailNat 5)

theorem State.captureCode_reporting (s : State) (rec : CaptureRecord) (count : Nat) (seen : Bool) (ended : Frame) :
    let t := s.captureCode rec count seen ended
    (¬ ((count = 2 ∧ seen = true) ∧ s.Loses rec) → t.reporting = s.reporting) ∧
    ((count = 2 ∧ seen = true) ∧ s.Loses rec → t.Overwritten) := by
  dsimp only
  obtain ⟨hkept, hlost⟩ := s.takeCapture_reporting (rec := rec) .inBand (ended - 2) ended
  unfold State.captureCode
  refine ⟨fun h => ?_, fun ⟨htakes, hloses⟩ => ?_⟩
  · split
    · next htakes => exact hkept fun hloses => h ⟨htakes, hloses⟩
    · rfl
  · rw [if_pos htakes]
    exact hlost hloses

theorem State.Loses.of_get {s t : State} {rec : CaptureRecord} (h : t.markers.get rec = s.markers.get rec) :
    t.Loses rec ↔ s.Loses rec := by
  unfold State.Loses
  rw [h]

/-- The judgement of a frame, record by record. -/
theorem State.judgeFrame_spec {s : State} (ended : Frame) (h : s.markers.judged = true) :
    let m := s.markers
    let t := s.judgeFrame ended
    let takes := fun (count : Nat) (seen : Bool) => count = 2 ∧ seen = true
    let captured := fun (rec : CaptureRecord) (count : Nat) (seen : Bool) =>
      (¬ takes count seen → t.markers.get rec = m.get rec) ∧
      (takes count seen → m.get rec = none → t.markers.get rec = some
        { source := .inBand, captureFrame := ended - 2, availability := ended, overwrite := false }) ∧
      ∀ held, takes count seen → m.get rec = some held → t.markers.get rec = some { held with overwrite := true }
    t = { s with markers := t.markers, reporting := t.reporting } ∧
      t.markers.startCount = persist m.startCount m.startSeen ∧
      t.markers.releaseCount = persist m.releaseCount m.releaseSeen ∧
      captured (.start .inBand) m.startCount m.startSeen ∧ captured .release m.releaseCount m.releaseSeen ∧
      (∀ src, src ≠ .inBand → t.markers.get (.start src) = m.get (.start src)) ∧
      (¬ (takes m.startCount m.startSeen ∧ s.Loses (.start .inBand)) →
        ¬ (takes m.releaseCount m.releaseSeen ∧ s.Loses .release) → t.reporting = s.reporting) ∧
      (takes m.startCount m.startSeen ∧ s.Loses (.start .inBand) ∨
        takes m.releaseCount m.releaseSeen ∧ s.Loses .release → t.Overwritten) := by
  dsimp only
  rw [State.judgeFrame_eq ended h]
  have hget (rec : CaptureRecord) : s.counted.markers.get rec = s.markers.get rec := by cases rec <;> rfl
  obtain ⟨hstart, hstartCount, hstartRelease, hstartOthers⟩ := s.counted.captureCode_frame (.start .inBand)
    s.markers.startCount s.markers.startSeen ended
  have hstartGet := s.counted.captureCode_get (.start .inBand) s.markers.startCount s.markers.startSeen ended
  have hstartReport := s.counted.captureCode_reporting (.start .inBand) s.markers.startCount s.markers.startSeen ended
  generalize s.counted.captureCode (.start .inBand) s.markers.startCount s.markers.startSeen ended = u at *
  obtain ⟨hrelease, hreleaseStart, hreleaseCount, hreleaseOthers⟩ := u.captureCode_frame .release
    s.markers.releaseCount s.markers.releaseSeen ended
  have hreleaseGet := u.captureCode_get .release s.markers.releaseCount s.markers.releaseSeen ended
  have hreleaseReport := u.captureCode_reporting .release s.markers.releaseCount s.markers.releaseSeen ended
  generalize u.captureCode .release s.markers.releaseCount s.markers.releaseSeen ended = t at *
  have huRelease : u.markers.get .release = s.markers.get .release :=
    (hstartOthers _ (by simp)).trans (hget _)
  have htStart : t.markers.get (.start .inBand) = u.markers.get (.start .inBand) := hreleaseOthers _ (by simp)
  simp only [hget, State.Loses.of_get (hget _)] at hstartGet hstartReport
  simp only [huRelease, State.Loses.of_get huRelease] at hreleaseGet hreleaseReport
  refine ⟨?_, hreleaseStart.trans hstartCount, hreleaseCount.trans hstartRelease, ?_, hreleaseGet, fun src hsrc => ?_,
    fun hno hnoRelease => ?_, fun hlost => ?_⟩
  · rw [hrelease, hstart]
    rfl
  · rw [htStart]
    exact hstartGet
  · exact (hreleaseOthers _ (by simp)).trans ((hstartOthers _ (by simpa using hsrc)).trans (hget _))
  · exact (hreleaseReport.1 hnoRelease).trans (hstartReport.1 hno)
  · by_cases hreleaseLost : (s.markers.releaseCount = 2 ∧ s.markers.releaseSeen = true) ∧ s.Loses .release
    · exact hreleaseReport.2 hreleaseLost
    · unfold State.Overwritten
      rw [hreleaseReport.1 hreleaseLost]
      exact hstartReport.2 (hlost.resolve_right hreleaseLost)

/-- Settles O54: the lines, the packets, the judgement, and the frame that begins. -/
theorem markersAreTaken : Obligations.MarkersAreTaken := by
  refine ⟨fun s i l => ⟨fun h => ?_, fun h => ?_⟩, fun s code check => ⟨(exec_markerPacket s code check).1,
    fun c hc hj hcheck => ⟨_, (exec_markerPacket s code check).2 c hc hcheck, ?_⟩⟩, fun s ended =>
    ⟨fun hj => ?_, fun hj => State.judgeFrame_spec ended hj⟩, fun _ => rfl⟩
  · rw [exec_lineEdge, if_pos h]
  · dsimp only
    rw [exec_lineEdge, if_neg h]
    refine ⟨fun hoff => congrArg _ (State.lineEdge_none i l hoff), fun c hc =>
      ⟨fun hother => congrArg _ (State.lineEdge_other i l hc hother), fun rec hrec hl hvalid => ?_⟩⟩
    have hactive := State.lineEdge_active (s := { s with markerPins := s.markerPins.set i l }) hc
      (LineRole.feeds_eq_some hrec) hl hvalid
    rw [hactive]
    refine ⟨fun hnone => ?_, fun held hheld => ⟨fun ho => ?_, fun ho => ?_⟩⟩
    · exact congrArg Host.Outcome.next
        (State.takeCapture_taken (s := { s with markerPins := s.markerPins.set i l }) _ _ _ hnone)
    · exact congrArg Host.Outcome.next
        (State.takeCapture_marked (s := { s with markerPins := s.markerPins.set i l }) _ _ _ hheld ho)
    · exact congrArg Host.Outcome.next
        (State.takeCapture_overwrites (s := { s with markerPins := s.markerPins.set i l }) _ _ _ hheld ho)
  · rw [Markers.packet, if_pos hj]
    refine ⟨rfl, ?_, ?_⟩ <;> simp
  · exact if_neg (by simp [hj])

/-! ### Hand-over (R107, R108, R110 to R112, R118, R131) -/

theorem State.addressed_eq_none_iff {s : State} {m : MarkerSource} : s.addressed m = none ↔
    ∀ y ∈ s.table, ¬ (y.state = .primed ∧ y.fields.trigger = .marked ∧ y.fields.source = some m) := by
  simp [State.addressed, and_assoc]

/-- The addressed junction is the first record in table order that waits on the source. -/
theorem State.addressed_eq_some {s : State} {m : MarkerSource} {r : Junction} (h : s.addressed m = some r) :
    ∃ pre post, s.table = pre ++ r :: post ∧
      (r.state = .primed ∧ r.fields.trigger = .marked ∧ r.fields.source = some m) ∧
      ∀ y ∈ pre, ¬ (y.state = .primed ∧ y.fields.trigger = .marked ∧ y.fields.source = some m) := by
  obtain ⟨hr, pre, post, htable, hpre⟩ := List.find?_eq_some_iff_append.1 h
  refine ⟨pre, post, htable, ?_, fun y hy ⟨hprimed, hmarked, hsource⟩ => ?_⟩
  · simpa [and_assoc] using hr
  · simpa [hprimed, hmarked, hsource] using hpre y hy

theorem State.judgeStart_onAir {s : State} (m : MarkerSource) (first : Frame) (h : s.sequencer.onAir.isSome = true) :
    s.judgeStart m first = (.ignored, none) := if_pos h

theorem State.judgeStart_unaddressed {s : State} {m : MarkerSource} (first : Frame) (h : s.sequencer.onAir = none)
    (ha : s.addressed m = none) : s.judgeStart m first = (.ignored, none) := by
  simp [State.judgeStart, h, ha]

theorem State.judgeStart_addressed {s : State} {m : MarkerSource} {r : Junction} (first : Frame)
    (h : s.sequencer.onAir = none) (ha : s.addressed m = some r) : s.judgeStart m first =
      if ahead r.fields.claimStart first then (.early, some r)
      else if ahead first r.fields.latestStart then (.ignored, none)
      else (.used, some r) := by
  simp [State.judgeStart, h, ha]

theorem State.handOverAll_eq (s : State) (x : StartContext) (jump : Option (Frame × Frame))
    (recs : List CaptureRecord) : s.handOverAll x jump recs = recs.foldl (fun t rec => t.handOver x jump rec) s := by
  induction recs generalizing s with
  | nil => rfl
  | cons rec recs ih => exact ih _

/-- A time jump moves both frames of a capture by one shift. -/
theorem Capture.moved_eq {c : Capture} {jump : Option (Frame × Frame)} {shift : Frame}
    (h : jump = none ∧ shift = 0 ∨ ∃ old new, jump = some (old, new) ∧ shift = new - old) :
    c.moved jump = { c with captureFrame := c.captureFrame + shift, availability := c.availability + shift } := by
  rcases h with ⟨rfl, rfl⟩ | ⟨old, new, rfl, rfl⟩
  · simp [Capture.moved]
  · rfl

theorem State.handOver_start {s : State} {m : MarkerSource} {held : Capture} (x : StartContext)
    (jump : Option (Frame × Frame)) (h : s.markers.get (.start m) = some held) : s.handOver x jump (.start m) =
      ({ s with markers := s.markers.set (.start m) none } : State).handStart x m (held.moved jump) := by
  unfold State.handOver
  rw [h]

theorem State.handOver_release {s : State} {held : Capture} (x : StartContext) (jump : Option (Frame × Frame))
    (h : s.markers.get .release = some held) : s.handOver x jump .release =
      ({ s with markers := s.markers.set .release none } : State).handRelease (held.moved jump) := by
  unfold State.handOver
  rw [h]

theorem State.handStart_used {s : State} {m : MarkerSource} {c : Capture} {r : Junction} (x : StartContext)
    (h : s.judgeStart m c.candidate = (.used, some r)) : s.handStart x m c =
      (s.takeStart x r c.candidate .marked).postMarker (.start m) c .used (some r.number) := by
  rw [State.handStart, h]

theorem State.handStart_early {s : State} {m : MarkerSource} {c : Capture} {r : Junction} (x : StartContext)
    (h : s.judgeStart m c.candidate = (.early, some r)) :
    s.handStart x m c = s.postMarker (.start m) c .early (some r.number) := by
  rw [State.handStart, h]
  rfl

theorem State.handStart_ignored {s : State} {m : MarkerSource} {c : Capture} (x : StartContext)
    (h : s.judgeStart m c.candidate = (.ignored, none)) :
    s.handStart x m c = s.postMarker (.start m) c .ignored none := by
  rw [State.handStart, h]
  rfl

theorem State.handRelease_offAir {s : State} (c : Capture) (h : s.sequencer.onAir = none) :
    s.handRelease c = s.postMarker .release c .ignored none := by
  rw [State.handRelease, h]

/-- A release capture at a junction on air asks for its release, but at the junction's first frame, or once a reason
is set, it is only noted. -/
theorem State.handRelease_requests {s : State} {n : JunctionNumber} {c : Capture} (h : s.sequencer.onAir = some n)
    (hfirst : s.sequencer.first ≠ some c.candidate) (hreason : s.sequencer.reason = none) : s.handRelease c =
      ({ s with sequencer := { s.sequencer with reason := some .releaseMarker } } : State).postMarker .release c .used
        (some n) := by
  rw [State.handRelease, h]
  dsimp only
  rw [if_neg hfirst, State.requestRelease_first .releaseMarker h hreason]

theorem State.handRelease_notes {s : State} {n : JunctionNumber} {c : Capture} (h : s.sequencer.onAir = some n)
    (hnoted : s.sequencer.first = some c.candidate ∨ s.sequencer.reason.isSome = true) : s.handRelease c =
      (s.noteRelease n .releaseMarker).postMarker .release c .used (some n) := by
  rw [State.handRelease, h]
  dsimp only
  split
  · rfl
  · next hfirst => rw [State.requestRelease_later .releaseMarker h (hnoted.resolve_left hfirst)]

/-- Settles O55: the judgement of a start capture, the order of the hand-over, and the hand-over of each record. -/
theorem startCaptureDisposition : Obligations.StartCaptureDisposition := by
  refine ⟨fun s m first => ⟨State.judgeStart_onAir m first, State.judgeStart_unaddressed first,
      State.addressed_eq_none_iff, fun r hair ha => ⟨State.addressed_eq_some ha, ?_⟩⟩,
    fun s b x => State.handOverAll_eq _ _ _ _, fun s x jump rec => ⟨fun h => ?_, fun held shift h hshift => ?_⟩⟩
  · rw [State.judgeStart_addressed first hair ha]
    refine ⟨fun hearly => if_pos hearly, fun hearly hlate => ?_, fun hearly hlate => ?_⟩
    · rw [if_neg (by simp [hearly]), if_pos hlate]
    · rw [if_neg (by simp [hearly]), if_neg (by simp [hlate])]
  · simp [State.handOver, h]
  · dsimp only
    have hmoved := Capture.moved_eq (c := held) hshift
    refine ⟨(Markers.get_set _ _ _ _).trans (if_pos rfl), fun other ho => (Markers.get_set _ _ _ _).trans (if_neg ho),
      fun m hm => ?_, fun hm => ?_⟩
    · subst hm
      rw [State.handOver_start x jump h, hmoved]
      exact ⟨fun r hr => State.handStart_used x hr, fun r hr => State.handStart_early x hr,
        fun hr => State.handStart_ignored x hr⟩
    · subst hm
      rw [State.handOver_release x jump h, hmoved]
      exact ⟨fun hair => State.handRelease_offAir _ hair, fun n hair =>
        ⟨fun hfirst hreason => State.handRelease_requests hair hfirst hreason,
          fun hnoted => State.handRelease_notes hair hnoted⟩⟩

end Sys2Proof.Machine

/-! PROOFS. Starts: what a start makes of the part, and the start tests of a boundary (R95, R116 to R124). -/

namespace Sys2Proof.Machine

/-! ### What the loads of a start read -/

/-- The layouts after the loads of a start follow from the layouts alone. -/
theorem State.startLayouts_layouts {s u : State} (r : Junction) (hl : u.layouts = s.layouts) :
    (u.startLayouts r).layouts = (s.startLayouts r).layouts := by
  cases hlayout : r.fields.layout with
  | some l =>
    rw [State.startLayouts_own hlayout, State.startLayouts_own hlayout, State.loadLayout_eq, State.loadLayout_eq]
    simp [State.dropStaged_layouts, hl]
  | none =>
    by_cases hj : s.layouts.staged = some .atJunction
    · rw [(State.startLayouts_staged hlayout).1 hj, (State.startLayouts_staged (s := u) hlayout).1 (hl ▸ hj)]
      simp [State.loadLayout_eq, hl]
    · rw [(State.startLayouts_staged hlayout).2 hj, (State.startLayouts_staged (s := u) hlayout).2 (hl ▸ hj)]
      unfold State.rampEndNotice
      rw [hl]
      split
      · split
        · simp [State.loadLayout_eq, hl]
        · exact hl
      · exact hl

/-- The events after them follow from the layouts, the events and HF. -/
theorem State.startLayouts_reporting {s u : State} (r : Junction) (hl : u.layouts = s.layouts)
    (hr : u.reporting = s.reporting) (ht : u.timing = s.timing) :
    (u.startLayouts r).reporting = (s.startLayouts r).reporting := by
  have hhf : u.hf = s.hf := by rw [State.hf, State.hf, ht]
  cases hlayout : r.fields.layout with
  | some l =>
    rw [State.startLayouts_own hlayout, State.startLayouts_own hlayout, State.loadLayout_eq, State.loadLayout_eq]
    cases hst : s.layouts.staged with
    | none => simp [State.dropStaged, hl, hst, hr, State.hf, ht]
    | some m => simp [State.dropStaged, hl, hst, hr, State.hf, ht]
  | none =>
    by_cases hj : s.layouts.staged = some .atJunction
    · rw [(State.startLayouts_staged hlayout).1 hj, (State.startLayouts_staged (s := u) hlayout).1 (hl ▸ hj)]
      simp [State.loadLayout_eq, hl, hr, hhf]
    · rw [(State.startLayouts_staged hlayout).2 hj, (State.startLayouts_staged (s := u) hlayout).2 (hl ▸ hj)]
      unfold State.rampEndNotice
      rw [hl]
      split
      · split
        · simp [State.loadLayout_eq, hl, hr, hhf]
        · exact hr
      · exact hr

/-! ### A start that is made (R123) -/

/-- The part with its junction on air, before the store's loads and the JUNCTION_STARTED event. -/
def State.startedQuietly (s : State) (x : StartContext) (r : Junction) (first : Frame) : State :=
  (((s.putOnAir x r first).applyCues 0 r.fields.cues).updateClaim r.number .record
    (OwnClaim.goOnAir r.fields first)).limitNeeded r.number
      (r.fields.rin + r.fields.actualHold first + r.fields.rout)

theorem State.makeStart_eq (s : State) (x : StartContext) (r : Junction) (first : Frame) (k : StartKind) :
    s.makeStart x r first k =
      if x.storeFirst then ((s.startedQuietly x r first).startLayouts r).reportStart r first k
      else ((s.startedQuietly x r first).reportStart r first k).startLayouts r := rfl

/-- What a start leaves of the part, but for the engine and the ring. -/
theorem State.startedQuietly_eq (s : State) (x : StartContext) (r : Junction) (first : Frame) :
    let u := s.startedQuietly x r first
    u = { s with
      sequencer := (s.sequencer.begin r.number r.fields first x.beforeSequencer).cued s.restLevel r.fields.cues 0
      compositor := .junction
      table := s.table.map (fun y => if y.number == r.number then y.begin first else y)
      publisher := (s.updateClaim r.number .record (OwnClaim.goOnAir r.fields first)).publisher
      engine := u.engine, ring := u.ring } := by
  dsimp only
  unfold State.startedQuietly
  rw [State.limitNeeded_eq, State.applyCues_eq]
  rfl

/-- The part after a start, but for the layouts and the events. -/
theorem State.makeStart_rest (s : State) (x : StartContext) (r : Junction) (first : Frame) (k : StartKind) :
    s.makeStart x r first k = { s.startedQuietly x r first with
      layouts := (s.makeStart x r first k).layouts, reporting := (s.makeStart x r first k).reporting } := by
  rw [State.makeStart_eq]
  split
  · rw [State.startLayouts_eq]
    rfl
  · rw [State.startLayouts_eq]
    rfl

/-- The cue points of offset 0 move the lines as they move those of the sequencer before the start. -/
theorem Sequencer.begin_cued (q : Sequencer) (n : JunctionNumber) (f : FieldSet) (first : Frame) (fresh : Bool)
    (rest : Fin 4 → Level) (cs : List CuePoint) : (q.begin n f first fresh).cued rest cs 0 =
      { q.begin n f first fresh with lines := (q.cued rest cs 0).lines, pulse := (q.cued rest cs 0).pulse } := by
  obtain ⟨hlines, hpulse⟩ := Sequencer.cued_congr (q := q.begin n f first fresh) (q' := q) rest cs 0 rfl rfl
  rw [← hlines, ← hpulse]
  exact Sequencer.cued_moves _ _ _ _

theorem State.startedQuietly_ring (s : State) (x : StartContext) (r : Junction) (first : Frame) :
    (s.ring.present r.number x.beforeRing).SlotsMoved (s.startedQuietly x r first).ring := by
  have hmoves := State.limitNeeded_moves (((s.putOnAir x r first).applyCues 0 r.fields.cues).updateClaim r.number .record
    (OwnClaim.goOnAir r.fields first)) r.number (r.fields.rin + r.fields.actualHold first + r.fields.rout)
  have hring : (((s.putOnAir x r first).applyCues 0 r.fields.cues).updateClaim r.number .record
      (OwnClaim.goOnAir r.fields first)).ring = s.ring.present r.number x.beforeRing := by
    rw [State.applyCues_eq]
    rfl
  rw [hring] at hmoves
  exact hmoves

theorem OwnClaim.goOnAir_isOf (f : FieldSet) (first : Frame) (k : OwnClaim) (n : JunctionNumber) (role : ClaimRole) :
    (k.goOnAir f first).isOf n role = k.isOf n role := rfl

theorem State.makeStart_spec {s : State} {x : StartContext} {r : Junction} {first : Frame} {k : StartKind}
    (hr : s.junction? r.number = some r) :
    let n := r.number
    let hold := r.fields.actualHold first
    let cued := s.sequencer.cued s.restLevel r.fields.cues 0
    let t := s.makeStart x r first k
    t.compositor = .junction ∧
      t.sequencer = { s.sequencer.begin n r.fields first x.beforeSequencer with
        lines := cued.lines, pulse := cued.pulse } ∧
      (∀ e ∈ t.engine.entries, e.junction = n → e.needed ≤ r.fields.rin + hold + r.fields.rout) ∧
      t.layouts = (s.startLayouts r).layouts ∧
      (x.storeFirst = true → t.reporting = ((s.startLayouts r).reportStart r first k).reporting) ∧
      (x.storeFirst = false → t.reporting = ((s.reportStart r first k).startLayouts r).reporting) ∧
      t.junction? n = some (r.begin first) ∧
      t.ring.onAir = some n ∧ t.ring.shown = 0 ∧ t.ring.next = 1 ∧ t.ring.slips = 0 ∧ t.ring.drops = 0 ∧
      ∀ c, s.claim? n .record = some c → t.claim? n .record = some (c.goOnAir r.fields first) := by
  have hquiet := s.startedQuietly_eq x r first
  have hring := s.startedQuietly_ring x r first
  have hrest := s.makeStart_rest x r first k
  have hneeded (e : FetchEntry) (he : e ∈ (s.startedQuietly x r first).engine.entries) :=
    State.limitNeeded_needed he
  have heq := s.makeStart_eq x r first k
  dsimp only at hquiet ⊢
  generalize s.startedQuietly x r first = u at hquiet hring hrest heq hneeded
  generalize s.makeStart x r first k = t at hrest heq
  have hlayouts : u.layouts = s.layouts := by rw [hquiet]
  have hreporting : u.reporting = s.reporting := by rw [hquiet]
  have htiming : u.timing = s.timing := by rw [hquiet]
  have hreport (v w : State) (h : v.reporting = w.reporting) :
      (v.reportStart r first k).reporting = (w.reportStart r first k).reporting :=
    congrArg (fun q : Reporting => q.post first .junctionStarted (some r.number) (detailOf k.code) _) h
  have hloaded : t.layouts = (s.startLayouts r).layouts := by
    rw [heq]
    split
    · exact State.startLayouts_layouts r hlayouts
    · exact State.startLayouts_layouts (s := s) (u := u.reportStart r first k) r hlayouts
  refine ⟨?_, ?_, fun e he hn => ?_, hloaded, fun h => ?_, fun h => ?_, ?_, ?_, ?_, ?_, ?_, ?_, fun c hc => ?_⟩
  · rw [hrest, hquiet]
  · rw [hrest, hquiet, Sequencer.begin_cued]
  · rw [hrest] at he
    exact hneeded e he hn
  · rw [heq, if_pos h]
    exact hreport _ _ (State.startLayouts_reporting r hlayouts hreporting htiming)
  · rw [heq, if_neg (by simp [h])]
    exact State.startLayouts_reporting r hlayouts (hreport u s hreporting) htiming
  · rw [hrest, hquiet]
    exact State.junction?_updateJunction (s := s) (f := fun y => y.begin first) hr (fun _ => rfl)
  · rw [hrest, hring]
    rfl
  · rw [hrest, hring]
    rfl
  · rw [hrest, hring]
    rfl
  · rw [hrest, hring]
    rfl
  · rw [hrest, hring]
    rfl
  · rw [hrest, hquiet]
    exact State.claim?_updateClaim (s := s) hc (fun k => OwnClaim.goOnAir_isOf r.fields first k _ _)

/-! ### The start tests of a boundary (R116, R117, R119 to R121) -/

theorem Junction.startDue_iff {r : Junction} {hf : Frame} {k : StartKind} : r.startDue hf = some k ↔
    k = .timed ∧ r.fields.trigger = .timed ∧ hf = r.fields.snom ∨
    k = .lateStart ∧ r.fields.trigger = .marked ∧ r.fields.fallback = some .lateStart ∧
      hf = r.fields.latestStart := by
  unfold Junction.startDue
  cases ht : r.fields.trigger with
  | timed =>
    by_cases h : hf = r.fields.snom
    · simp [h, eq_comm]
    · simp [h]
  | marked =>
    rcases hfb : r.fields.fallback with _ | fb
    · simp
    · cases fb with
      | lateStart =>
        by_cases h : hf = r.fields.latestStart
        · simp [h, eq_comm]
        · simp [h]
      | abandon => simp

theorem Junction.timeoutDue_iff {r : Junction} {hf : Frame} : r.timeoutDue hf = true ↔
    r.fields.trigger = .marked ∧ r.fields.fallback = some .abandon ∧ hf = r.fields.latestStart + 1 := by
  simp [Junction.timeoutDue, and_assoc]

/-- A record that ends ABANDONED at a start test. -/
theorem State.abandon_spec {s : State} {r : Junction} (reason : Reason) (hr : s.junction? r.number = some r) :
    let t := s.endRecord r.number { outcome := .abandoned, reason := some reason }
    s.SameAround t ∧ t.table = removeNumber r.number s.table ∧ t.sequencer = s.sequencer ∧
      s.Posted t .junctionEnd (some r.number) (detailBytes 4 reason.code 0)
        (r.actualFirst.getD (r.fields.commitFrame s.lead)) := by
  dsimp only
  have hposted := State.endRecord_posted { outcome := .abandoned, reason := some reason } hr
  refine ⟨(Acts.endRecord s _ _).sameAround, ?_, ?_, hposted⟩
  · rw [State.endRecord_spec _ hr]
  · rw [State.endRecord_spec _ hr]

theorem State.testStart_due {s : State} {r : Junction} {k : StartKind} (x : StartContext) (idle : Bool)
    (h : r.startDue s.hf = some k) : s.testStart x idle r =
      if s.sequencer.onAir.isNone then s.takeStart x r s.hf k
      else s.endRecord r.number { outcome := .abandoned, reason := some .timeJump } := by
  rw [State.testStart, h]

theorem State.testStart_notDue {s : State} {r : Junction} (x : StartContext) (idle : Bool)
    (h : r.startDue s.hf = none) : s.testStart x idle r =
      if idle && r.timeoutDue s.hf then s.endRecord r.number { outcome := .abandoned, reason := some .markerTimeout }
      else s := by
  rw [State.testStart, h]

/-- Settles O56: a start with its promo and without, and the start tests. -/
theorem startPutsJunctionOnAir : Obligations.StartPutsJunctionOnAir := by
  refine ⟨fun s x r first k hr => ⟨fun hready => ?_, fun hready => ?_⟩, fun s x idle r hr =>
    ⟨fun k hdue hair => ?_, fun k hdue hair => ?_, fun htimeout hidle => ?_, fun hnot htimeout => ?_⟩⟩
  · have htaken : s.takeStart x r first k = s.makeStart x r first k := if_pos hready
    have haround := (Acts.takeStart s x r first k).sameAround
    rw [htaken] at haround ⊢
    exact ⟨haround, State.makeStart_spec hr⟩
  · have htaken : s.takeStart x r first k =
        s.endRecord r.number { outcome := .abandoned, reason := some .promoNotReady } := if_neg (by simp [hready])
    rw [htaken]
    exact (State.abandon_spec .promoNotReady hr).2
  · rw [State.testStart_due x idle (Junction.startDue_iff.2 hdue), if_pos (by simp [hair])]
  · have htested := State.testStart_due x idle (Junction.startDue_iff.2 hdue)
    rw [if_neg (by simpa [Option.isSome_iff_ne_none] using hair)] at htested
    dsimp only
    rw [htested]
    exact State.abandon_spec .timeJump hr
  · have hnone : r.startDue s.hf = none := by
      rw [Option.eq_none_iff_forall_ne_some]
      intro k hk
      rcases Junction.startDue_iff.1 hk with ⟨-, ht, -⟩ | ⟨-, -, hfb, -⟩
      · simp [htimeout.1] at ht
      · simp [htimeout.2.1] at hfb
    have htested := State.testStart_notDue x idle hnone
    rw [if_pos (by rw [hidle, Junction.timeoutDue_iff.2 htimeout]; rfl)] at htested
    dsimp only
    rw [htested]
    exact State.abandon_spec .markerTimeout hr
  · have hnone : r.startDue s.hf = none :=
      Option.eq_none_iff_forall_ne_some.2 fun k hk => hnot k (Junction.startDue_iff.1 hk)
    rw [State.testStart_notDue x idle hnone, if_neg]
    rw [Bool.and_eq_true, Junction.timeoutDue_iff]
    exact fun ⟨hidle, hdue⟩ => htimeout ⟨hdue, hidle⟩

end Sys2Proof.Machine

/-! PROOFS. The release and the end of the junction on air, and the sequencer's advance (R116, R125 to R133). -/

namespace Sys2Proof.Machine

/-! ### The end of the junction on air (R132, R133) -/

/-- What the events say of themselves, their values aside. -/
def Event.coded (e : Event) : EventKind × Option JunctionNumber × BitVec 24 := (e.kind, e.junction, e.code)

theorem State.post_coded {s : State} (k : EventKind) (j : Option JunctionNumber) (c v : BitVec 24)
    (h : s.reporting.events.length < 32) : (s.post k j c v).reporting.events.map Event.coded =
      s.reporting.events.map Event.coded ++ [(k, j, c)] := by
  have hroom : s.reporting.events.length < eventCapacity := h
  rw [State.post_reporting, Reporting.post_room hroom]
  simp [Event.coded]

theorem State.post_length {s : State} (k : EventKind) (j : Option JunctionNumber) (c v : BitVec 24)
    (h : s.reporting.events.length < 32) :
    (s.post k j c v).reporting.events.length = s.reporting.events.length + 1 := by
  have hcoded := congrArg List.length (State.post_coded k j c v h)
  simpa using hcoded

theorem endingOf_code (why : Reason) :
    (endingOf why).code = if why = .ordinary then detailBytes 1 0 0 else detailBytes 2 why.code 0 := by
  unfold endingOf
  split <;> rfl

/-- The part as its record ends, once the sequencer, the ring and the output have left the junction. -/
def State.leftAir (s : State) (n : JunctionNumber) : State :=
  ({ s with sequencer := s.sequencerAtRest, ring := s.ring.offAir, compositor := .passThrough } : State).post
    .promoCounts (some n) (detailNat s.ring.drops) (detailNat s.ring.slips)

theorem State.endOnAir_eq {s : State} {n : JunctionNumber} {why : Reason} (ha : s.sequencer.onAir = some n)
    (hr : s.sequencer.reason = some why) : s.endOnAir = (s.leftAir n).endRecord n (endingOf why) := by
  rw [State.endOnAir, ha, hr]
  rfl

theorem State.endOnAir_events {s : State} {r : Junction} {why : Reason} (h : s.junction? r.number = some r)
    (ha : s.sequencer.onAir = some r.number) (hr : s.sequencer.reason = some why)
    (hroom : s.reporting.events.length < 31) : s.endOnAir.reporting.events.map Event.coded =
      s.reporting.events.map Event.coded ++
        [(.promoCounts, some r.number, detailNat s.ring.drops),
         (.junctionEnd, some r.number, if why = .ordinary then detailBytes 1 0 0 else detailBytes 2 why.code 0)] := by
  have hj : (s.leftAir r.number).junction? r.number = some r := h
  have hleft : (s.leftAir r.number).reporting.events.map Event.coded = s.reporting.events.map Event.coded ++
      [(.promoCounts, some r.number, detailNat s.ring.drops)] :=
    State.post_coded (s := s) .promoCounts (some r.number) (detailNat s.ring.drops) (detailNat s.ring.slips) (by omega)
  have hlength : (s.leftAir r.number).reporting.events.length = s.reporting.events.length + 1 :=
    State.post_length (s := s) .promoCounts (some r.number) (detailNat s.ring.drops) (detailNat s.ring.slips) (by omega)
  rw [State.endOnAir_eq ha hr, State.endRecord_spec _ hj]
  refine (State.post_coded (s := s.leftAir r.number) _ _ _ _ (by omega)).trans ?_
  rw [hleft, List.append_assoc, endingOf_code]
  rfl

/-! ### Release (R128, R129) -/

/-- The part with its release begun and reported, before an end at once. -/
def State.releasing (s : State) (r : Junction) (why : Reason) : State :=
  let left := releaseLoad s.sequencer r.fields
  let u : State := ({ s with sequencer := { s.sequencer with
    phase := .release, begun := true, ramp := 0, holdLeft := 0, releaseLeft := left } } : State).updateJunction
      r.number (fun x => { x with state := .release })
  let v := if why = .ordinary then u else u.shortenClaim r.number (addFrames s.hf left)
  (v.limitNeeded r.number (v.ring.shown + left + 1)).post .releaseBegun (some r.number) (detailOf why.code)
    (detailNat left)

theorem State.beginRelease_eq (s : State) (r : Junction) (why : Reason) : s.beginRelease r why =
    if releaseLoad s.sequencer r.fields = 0 then (s.releasing r why).endOnAir else s.releasing r why := rfl

/-- The publisher once a release has begun: the claim of a junction released early ends with its last frame (R96). -/
def State.releasePublisher (s : State) (r : Junction) (why : Reason) : Publisher :=
  if why = .ordinary then s.publisher
  else (s.shortenClaim r.number (addFrames s.hf (releaseLoad s.sequencer r.fields))).publisher

theorem State.releasing_eq (s : State) (r : Junction) (why : Reason) :
    let left := releaseLoad s.sequencer r.fields
    let u := s.releasing r why
    u = { s with
      sequencer := { s.sequencer with
        phase := .release, begun := true, ramp := 0, holdLeft := 0, releaseLeft := left }
      table := s.table.map (fun y => if y.number == r.number then { y with state := .release } else y)
      publisher := s.releasePublisher r why
      engine := u.engine, ring := u.ring
      reporting := (s.post .releaseBegun (some r.number) (detailOf why.code) (detailNat left)).reporting } := by
  dsimp only
  unfold State.releasing State.releasePublisher
  by_cases hw : why = .ordinary
  · simp only [hw, if_true]
    rw [State.limitNeeded_eq]
    rfl
  · simp only [hw, if_false]
    rw [State.limitNeeded_eq]
    rfl

theorem State.releasing_ring (s : State) (r : Junction) (why : Reason) :
    s.ring.SlotsMoved (s.releasing r why).ring := by
  unfold State.releasing
  by_cases hw : why = .ordinary
  · simp only [hw, if_true]
    exact State.limitNeeded_moves _ _ _
  · simp only [hw, if_false]
    exact State.limitNeeded_moves _ _ _

theorem State.releasing_around (s : State) (r : Junction) (why : Reason) : s.SameAround (s.releasing r why) := by
  rw [State.releasing_eq]
  exact ⟨rfl, rfl, rfl, rfl⟩

theorem State.OffAir.of_eq {s u t : State} (h : u.OffAir t) (hc : u.config = s.config) : s.OffAir t :=
  ⟨h.sequencer, fun i => (h.lines i).trans (by rw [State.restLevel, State.restLevel, hc]), h.ring, h.output⟩

/-- A release with frames to run. -/
theorem State.beginRelease_runs {s : State} {r : Junction} {why : Reason} (hr : s.junction? r.number = some r)
    (hleft : releaseLoad s.sequencer r.fields ≠ 0) :
    let left := releaseLoad s.sequencer r.fields
    let t := s.beginRelease r why
    s.SameAround t ∧
      t.sequencer = { s.sequencer with
        phase := .release, begun := true, ramp := 0, holdLeft := 0, releaseLeft := left } ∧
      t.junction? r.number = some { r with state := .release } ∧
      s.Posted t .releaseBegun (some r.number) (detailOf why.code) (detailNat left) ∧
      ∀ c, why ≠ .ordinary → s.claim? r.number .record = some c →
        t.claim? r.number .record = some { c with stop := s.hf + BitVec.ofNat 24 left } := by
  dsimp only
  rw [State.beginRelease_eq, if_neg hleft]
  refine ⟨s.releasing_around r why, ?_, ?_, fun hroom => ?_, fun c hw hc => ?_⟩
  · rw [State.releasing_eq]
  · rw [State.releasing_eq]
    exact State.junction?_updateJunction (s := s) (f := fun x => { x with state := .release }) hr (fun _ => rfl)
  · rw [State.releasing_eq]
    exact State.post_posted s _ _ _ _ hroom
  · rw [State.releasing_eq, State.releasePublisher, if_neg hw]
    exact State.claim?_updateClaim (s := s)
      (f := fun k => { k with stop := addFrames s.hf (releaseLoad s.sequencer r.fields) }) hc (fun _ => rfl)

/-- A release with none: the junction ends at once. -/
theorem State.beginRelease_ends {s : State} {r : Junction} {why : Reason} (hr : s.junction? r.number = some r)
    (hleft : releaseLoad s.sequencer r.fields = 0) (ha : s.sequencer.onAir = some r.number)
    (hw : s.sequencer.reason = some why) :
    let t := s.beginRelease r why
    s.SameAround t ∧ s.OffAir t ∧ t.table = removeNumber r.number s.table ∧
      (s.reporting.events.length < 30 → t.reporting.events.map Event.coded = s.reporting.events.map Event.coded ++
        [(.releaseBegun, some r.number, detailOf why.code), (.promoCounts, some r.number, detailNat s.ring.drops),
         (.junctionEnd, some r.number, if why = .ordinary then detailBytes 1 0 0 else detailBytes 2 why.code 0)]) := by
  have haround := (Acts.beginRelease s r why).sameAround
  dsimp only
  rw [State.beginRelease_eq, if_pos hleft] at haround ⊢
  have heq := s.releasing_eq r why
  have hring := s.releasing_ring r why
  generalize s.releasing r why = u at heq hring haround
  have huj : u.junction? r.number = some { r with state := .release } := by
    rw [heq]
    exact State.junction?_updateJunction (s := s) (f := fun x => { x with state := .release }) hr (fun _ => rfl)
  have hua : u.sequencer.onAir = some r.number := by rw [heq]; exact ha
  have huw : u.sequencer.reason = some why := by rw [heq]; exact hw
  have hureport : u.reporting = (s.post .releaseBegun (some r.number) (detailOf why.code)
      (detailNat (releaseLoad s.sequencer r.fields))).reporting := by rw [heq]
  obtain ⟨hoff, htable⟩ := State.endOnAir_spec (r := { r with state := .release }) huj hua huw
  refine ⟨haround, hoff.of_eq (by rw [heq]), htable.trans ?_, fun hroom => ?_⟩
  · rw [heq]
    exact removeNumber_map (f := fun y => { y with state := .release }) r.number s.table (fun _ => rfl)
  · have hulength : u.reporting.events.length = s.reporting.events.length + 1 := by
      rw [hureport]
      exact State.post_length _ _ _ _ (by omega)
    rw [State.endOnAir_events (r := { r with state := .release }) huj hua huw (by omega), hureport,
      State.post_coded _ _ _ _ (by omega), List.append_assoc, hring]
    rfl

/-! ### The advance (R116, R125 to R127) -/

theorem State.testStarts_eq (s : State) (x : StartContext) (idle : Bool) (rs : List Junction) :
    s.testStarts x idle rs = rs.foldl (fun t r => t.testStart x idle r) s := by
  induction rs generalizing s with
  | nil => rfl
  | cons r rs ih => exact ih _

/-- The items of the sequencer that an advance does not move before its phase steps. -/
theorem State.advanced_items (s : State) (cs : List CuePoint) :
    (s.advanced cs).phase = s.sequencer.phase ∧ (s.advanced cs).reason = s.sequencer.reason ∧
    (s.advanced cs).ramp = s.sequencer.ramp ∧ (s.advanced cs).hold = s.sequencer.hold ∧
    (s.advanced cs).holdLeft = s.sequencer.holdLeft ∧ (s.advanced cs).releaseLeft = s.sequencer.releaseLeft := by
  rw [State.advanced_moves]
  exact ⟨rfl, rfl, rfl, rfl, rfl, rfl⟩

theorem State.stepSqueeze_cases {s : State} {p : Nat} {hold : Option Nat} (r : Junction)
    (hp : s.sequencer.ramp = p) (hh : s.sequencer.hold = hold) :
    (p + 1 < r.fields.rin → s.stepSqueeze r = { s with sequencer := { s.sequencer with ramp := p + 1 } }) ∧
    (p + 1 = r.fields.rin → s.stepSqueeze r =
      ({ s with sequencer := { s.sequencer with ramp := p + 1 } } : State).rampEndNotice r.number) ∧
    (r.fields.rin ≤ p → s.stepSqueeze r = { s with
      sequencer := { s.sequencer with phase := .hold, ramp := 0, holdLeft := hold.getD 0 }
      table := s.table.map (fun y => if y.number = r.number then { y with state := .hold } else y) }) := by
  subst hp hh
  unfold State.stepSqueeze
  dsimp only
  refine ⟨fun h => ?_, fun h => ?_, fun h => ?_⟩
  · rw [if_pos (by omega), if_neg (by omega)]
  · rw [if_pos (by omega), if_pos h]
  · rw [if_neg (by omega)]
    simp only [State.updateJunction, beq_iff_eq]

theorem State.stepHold_cases {s : State} {left : Nat} (r : Junction) (hleft : s.sequencer.holdLeft = left) :
    (1 < left → s.stepHold r = { s with sequencer := { s.sequencer with holdLeft := left - 1 } }) ∧
    (left ≤ 1 → s.stepHold r =
      ({ s with sequencer := { s.sequencer with reason := some .ordinary } } : State).beginRelease r .ordinary) := by
  subst hleft
  exact ⟨fun h => if_neg (by omega), fun h => if_pos h⟩

theorem State.stepRelease_cases {s : State} {left : Nat} (hleft : s.sequencer.releaseLeft = left) :
    let u : State := { s with sequencer := { s.sequencer with releaseLeft := left - 1 } }
    (1 < left → s.stepRelease = u) ∧ (left ≤ 1 → s.stepRelease = u.endOnAir) := by
  subst hleft
  exact ⟨fun h => if_neg (by omega), fun h => if_pos h⟩

/-- The step of each phase, without a release reason and with one. -/
theorem State.stepPhase_cases (s : State) (r : Junction) :
    (s.sequencer.phase = .squeezeIn → s.sequencer.reason = none → s.stepPhase r = s.stepSqueeze r) ∧
    (s.sequencer.phase = .hold → s.sequencer.reason = none → s.stepPhase r = s.stepHold r) ∧
    (∀ why, s.sequencer.phase = .squeezeIn ∨ s.sequencer.phase = .hold → s.sequencer.reason = some why →
      s.stepPhase r = s.beginRelease r why) ∧
    (s.sequencer.phase = .release → s.stepPhase r = s.stepRelease) := by
  unfold State.stepPhase
  refine ⟨fun hp hn => by rw [hp, hn], fun hp hn => by rw [hp, hn], ?_, fun hp => by rw [hp]⟩
  rintro why (hp | hp) hw
  · rw [hp, hw]
  · rw [hp, hw]

/-- Settles O57: the release, the end, the boundary's operation, and the advance phase by phase. -/
theorem releaseBeginsAndEnds : Obligations.ReleaseBeginsAndEnds := by
  refine ⟨fun s r why hr => ⟨fun hphase hramp hrin => ?_, fun hleft => State.beginRelease_runs hr hleft,
      fun hleft ha hw => State.beginRelease_ends hr hleft ha hw⟩,
    fun s r why hr ha hw => ?_, fun s b x => ⟨State.testStarts_eq _ _ _ _, fun h => ?_, fun h hfresh => ?_⟩,
    fun s r ha hfresh hr => ?_⟩
  · rw [if_pos hphase, hramp]
    exact Nat.mul_div_cancel_left _ (Nat.pos_of_ne_zero hrin)
  · obtain ⟨hoff, htable⟩ := State.endOnAir_spec hr ha hw
    exact ⟨(Acts.endOnAir s).sameAround, hoff, htable, State.endOnAir_events hr ha hw⟩
  · simp [State.advance, h]
  · obtain ⟨n, hn⟩ := Option.isSome_iff_exists.1 h
    simp [State.advance, hn, hfresh]
  · have hadvance := State.advance_eq hr ha hfresh
    obtain ⟨hphase, hreason, hramp, hhold, hholdLeft, hreleaseLeft⟩ := s.advanced_items r.fields.cues
    obtain ⟨hsqueeze, hholds, hreleases, hrelease⟩ :=
      State.stepPhase_cases { s with sequencer := s.advanced r.fields.cues } r
    dsimp only
    rw [hadvance]
    refine ⟨fun hp hn => ?_, fun hp hn => ?_, fun why hp hw => ?_, fun hp => ?_⟩
    · rw [hsqueeze (hphase.trans hp) (hreason.trans hn)]
      exact State.stepSqueeze_cases r hramp hhold
    · rw [hholds (hphase.trans hp) (hreason.trans hn)]
      exact State.stepHold_cases r hholdLeft
    · exact hreleases why (hp.imp hphase.trans hphase.trans) (hreason.trans hw)
    · rw [hrelease (hphase.trans hp)]
      exact State.stepRelease_cases hreleaseLeft

end Sys2Proof.Machine

/-! PROOFS. The commit test, and the close at which no claim has a result (R71, R77, R89, R90, R98). -/

namespace Sys2Proof.Machine

/-! ### The commit test (R89, R90) -/

theorem State.commitAllowed_iff {s : State} {x : CloseContext} {r : Junction} : s.commitAllowed x r = true ↔
    r.state = .locked ∧ ∃ k, s.claim? r.number .record = some k ∧ s.resultFor x k = some .seated ∧
      ∃ d ∈ s.publisher.lastChoice, k.tag = some d.tag ∧ d.cls = .locked := by
  unfold State.commitAllowed
  cases s.claim? r.number .record with
  | none => simp
  | some k => simp

theorem State.commitTest_of_allowed {s : State} {x : CloseContext} {r : Junction} (hr : s.junction? r.number = some r)
    (h : s.commitAllowed x r = true) : s.commitTest x r.number = s.commitRecord r := by
  rw [State.commitTest, hr]
  exact if_pos h

theorem State.commitTest_of_not_allowed {s : State} {x : CloseContext} {r : Junction}
    (hr : s.junction? r.number = some r) (h : ¬ s.commitAllowed x r = true) :
    s.commitTest x r.number = s.endRecord r.number { outcome := .declined, reason := some .noLock } := by
  rw [State.commitTest, hr]
  exact if_neg h

/-- The fetch entry of a record that has become PRIMED. -/
def Junction.fetchEntry (r : Junction) : FetchEntry :=
  { junction := r.number, clip := r.fields.clipOf r.promo, needed := r.fields.rin + r.fields.hold + r.fields.rout,
    fetchIndex := 0 }

/-- The entry that is new for its junction stands in the order of the table. -/
theorem mem_entriesInOrder_append {order : List JunctionNumber} {es : List FetchEntry} {e : FetchEntry}
    (horder : e.junction ∈ order) (hnew : ∀ y ∈ es, y.junction ≠ e.junction) :
    e ∈ entriesInOrder order (es ++ [e]) := by
  refine List.mem_filterMap.2 ⟨e.junction, horder, ?_⟩
  rw [List.find?_append, List.find?_eq_none.2 fun y hy => by simpa using hnew y hy]
  simp

/-- A frame that is begun moves the fetch index of an entry that has frames to fetch by one. -/
theorem State.beginFrame_keeps_entry {s : State} {e : FetchEntry} (h : e ∈ s.engine.entries) :
    ∃ e' ∈ s.beginFrame.engine.entries, e'.junction = e.junction ∧ e'.clip = e.clip ∧ e'.needed = e.needed ∧
      e'.fetchIndex ≤ e.fetchIndex + 1 := by
  rcases s.beginFrame_cases with hsame | ⟨y, i, -, -, hbegun⟩
  · exact ⟨e, by rwa [hsame], rfl, rfl, rfl, Nat.le_succ _⟩
  · rw [hbegun]
    refine ⟨_, List.mem_map_of_mem h, ?_⟩
    split <;> simp

/-- A record that has become PRIMED has a fetch entry, which is at most begun. -/
theorem State.createEntry_has_entry {s : State} {r : Junction} (hn : r.number ∈ s.numbers)
    (hnew : ∀ e ∈ s.engine.entries, e.junction ≠ r.number) :
    ∃ e ∈ (s.createEntry r).engine.entries, e.junction = r.number ∧ e.clip = r.fields.clipOf r.promo ∧
      e.needed = r.fields.rin + r.fields.hold + r.fields.rout ∧ e.fetchIndex ≤ 1 :=
  State.beginFrame_keeps_entry (e := r.fetchEntry) (mem_entriesInOrder_append hn hnew)

theorem State.commitRecord_spec {s : State} {r : Junction} (hr : s.junction? r.number = some r) :
    (s.commitRecord r).junction? r.number = some { r with state := .primed } ∧
      ((∀ e ∈ s.engine.entries, e.junction ≠ r.number) → ∃ e ∈ (s.commitRecord r).engine.entries,
        e.junction = r.number ∧ e.clip = r.fields.clipOf r.promo ∧
          e.needed = r.fields.rin + r.fields.hold + r.fields.rout ∧ e.fetchIndex ≤ 1) ∧
      s.Posted (s.commitRecord r) .junctionCommitted (some r.number) 0 (r.fields.commitFrame s.lead) := by
  have hprimed : (s.updateJunction r.number (fun r => { r with state := .primed })).junction? r.number =
      some { r with state := .primed } :=
    State.junction?_updateJunction (f := fun r => { r with state := .primed }) hr (fun _ => rfl)
  refine ⟨?_, fun hnew => ?_, ?_⟩
  · unfold State.commitRecord State.createEntry State.junction?
    rw [State.post_table, State.beginFrame_table]
    exact hprimed
  · have hn : r.number ∈ (s.updateJunction r.number (fun r => { r with state := .primed })).numbers :=
      List.mem_map.2 ⟨_, (State.junction?_mem hprimed).1, rfl⟩
    unfold State.commitRecord
    rw [State.post_engine]
    exact State.createEntry_has_entry hn hnew
  · exact (State.post_posted _ _ _ _ _).of_eq
      (by rw [State.createEntry, State.beginFrame_reporting]; rfl)
      (by rw [State.createEntry, State.beginFrame_eq]; rfl)

/-! ### A close without results (R71, R77) -/

theorem State.resultFor_of_no_results {s : State} {x : CloseContext} (h : x.results = []) (k : OwnClaim) :
    s.resultFor x k = none := by
  unfold State.resultFor
  cases k.tag with
  | none => rfl
  | some t => simp [h]

theorem State.recordStep_of_no_result {s : State} {x : CloseContext} (n : JunctionNumber)
    (h : ∀ k, s.resultFor x k = none) : s.recordStep x n = s := by
  unfold State.recordStep
  cases s.junction? n with
  | none => rfl
  | some r =>
    cases s.claim? n .record with
    | none => rfl
    | some k => simp [h k]

theorem State.stageRecords_of_no_result {s : State} {x : CloseContext} (ns : List JunctionNumber)
    (h : ∀ k, s.resultFor x k = none) : s.stageRecords x ns = s := by
  induction ns with
  | nil => rfl
  | cons n ns ih => rw [State.stageRecords, State.recordStep_of_no_result n h, ih]

/-- Stages 2 and 3 do nothing where no amendment is pending and no claim has a result. -/
theorem State.stageResults_of_no_result {s : State} {x : CloseContext} (hresults : x.results = [])
    (hpending : ∀ r ∈ s.table, r.pending = none) : s.stageResults x = s := by
  have hnone : s.numbersWhere (fun r => r.pending.isSome) = [] := by
    rw [State.numbersWhere, List.filter_eq_nil_iff.2 fun r hr => by simp [hpending r hr]]
    rfl
  rw [State.stageResults, hnone]
  exact State.stageRecords_of_no_result _ (State.resultFor_of_no_results hresults)

/-- A run of endings leaves the parts around, the bus and the mirror. -/
theorem State.Ended.around {s t : State} {e : Junction → Ending} {gone : List Junction} (h : s.Ended e gone t) :
    s.SameAround t ∧ t.bus = s.bus ∧ t.mirror = s.mirror := by
  rw [h.rest]
  exact ⟨⟨rfl, rfl, rfl, rfl⟩, rfl, rfl⟩

/-- Settles O29: the commit test by whether it is passed, and the close outside MEMBER, whose stages 2 and 3 find
nothing. -/
theorem commitTest : Obligations.CommitTest := by
  refine ⟨fun s x r hr => ⟨fun hallowed => ?_, fun hnot => ?_⟩, fun s x hx hresults hpending hnodup => ?_⟩
  · rw [State.commitTest_of_allowed hr (State.commitAllowed_iff.2 hallowed)]
    obtain ⟨hprimed, hentry, hposted⟩ := State.commitRecord_spec hr
    exact ⟨hprimed, fun hall => hentry (by simpa using hall), hposted⟩
  · rw [State.commitTest_of_not_allowed hr (fun h => hnot (State.commitAllowed_iff.1 h))]
    refine ⟨?_, fun k hk => ?_, State.endRecord_posted _ hr⟩
    · rw [State.endRecord_spec _ hr]
    · rw [State.endRecord_spec _ hr] at hk
      simpa using (List.mem_filter.1 hk).2
  · obtain ⟨hended, htable⟩ := State.declineSilent_ended (s := s) x.hf (fun st => st == .planned) hnodup
    have hclose : s.publisherClose x = s.declineSilent x.hf (fun st => st == .planned) := by
      rw [State.publisherClose_outside hx, State.closeOutside, State.stageResults_of_no_result hresults hpending]
    rw [hclose]
    obtain ⟨haround, hbus, hmirror⟩ := hended.around
    exact ⟨haround, hbus, hmirror, htable, hended.publisher, fun hroom => hended.coded hroom⟩

end Sys2Proof.Machine

/-! PROOFS. What a result makes of an own claim: settling, locking, switching and adoption (R78, R81 to R83, R86 to
R88). -/

namespace Sys2Proof.Machine

theorem OwnClaim.isOf_iff {k : OwnClaim} {n : JunctionNumber} {role : ClaimRole} :
    k.isOf n role = true ↔ k.junction = n ∧ k.role = role := by
  simp [OwnClaim.isOf]

/-! ### The claim of an OPEN record (R81 to R83) -/

theorem State.openResult_switch {s : State} {x : CloseContext} {r : Junction} {k : OwnClaim} {alt : Promo}
    (hpromo : r.promo = .primary) (halt : r.fields.alternate = some alt) :
    s.openResult x r k .unseatedCampaign = s.switchCampaign r.number alt.campaign := by
  simp only [State.openResult, hpromo, halt]

theorem State.openResult_settle {s : State} {x : CloseContext} {r : Junction} {k : OwnClaim} {res : SeatResult}
    (h : res ≠ .unseatedCampaign ∨ r.promo = .alternate ∨ r.fields.alternate = none) :
    s.openResult x r k res =
      if x.settle ≤ settled x res (k.settle.getD 0) then s.lockClaim r.number k.posted
      else s.updateClaim r.number .record
        (fun c => { c with settle := some (settled x res (k.settle.getD 0)) }) := by
  unfold State.openResult
  split
  · next hpromo halt => simp [hpromo, halt] at h
  · rfl

theorem State.recordResult_opened {s : State} {x : CloseContext} {r : Junction} {k : OwnClaim} {res : SeatResult}
    (h : r.state = .opened) : s.recordResult x r k res = s.openResult x r k res := by
  rw [State.recordResult, h]

theorem State.lockClaim_spec {s : State} {r : Junction} {k : OwnClaim} (hr : s.junction? r.number = some r)
    (hk : s.claim? r.number .record = some k) :
    (s.lockClaim r.number k.posted).claim? r.number .record = some { k with cls := .locked, settle := none } ∧
      (s.lockClaim r.number k.posted).junction? r.number = some { r with state := .locked } ∧
      s.Posted (s.lockClaim r.number k.posted) .claimLocked (some r.number) 0 (k.posted.getD 0) :=
  ⟨State.claim?_updateClaim (f := fun c => { c with cls := .locked, settle := none }) hk (fun _ => rfl),
    State.junction?_updateJunction (s := s) (f := fun r => { r with state := .locked }) hr (fun _ => rfl),
    (State.post_posted _ _ _ _ _).of_eq rfl rfl⟩

theorem State.switchCampaign_spec {s : State} {r : Junction} {k : OwnClaim} (campaign : Half)
    (hr : s.junction? r.number = some r) (hk : s.claim? r.number .record = some k) :
    (s.switchCampaign r.number campaign).junction? r.number = some { r with promo := .alternate } ∧
      (s.switchCampaign r.number campaign).claim? r.number .record = some { k with
        campaign := campaign, tag := none, cls := .opened, posted := none, settle := some 0, mark := true } ∧
      s.Posted (s.switchCampaign r.number campaign) .promoSwitched (some r.number) (detailNat 1)
        (campaign.setWidth 24) :=
  ⟨State.junction?_updateJunction (f := fun r => { r with promo := .alternate }) hr (fun _ => rfl),
    State.claim?_updateClaim (s := s) (f := fun c => { c.repost with campaign := campaign }) hk (fun _ => rfl),
    (State.post_posted _ _ _ _ _).of_eq rfl rfl⟩

/-! ### The result that reaches a claim (R77, R78) -/

theorem State.recordStep_result {s : State} {x : CloseContext} {n : JunctionNumber} {r : Junction} {k : OwnClaim}
    {res : SeatResult} (hr : s.junction? n = some r) (hk : s.claim? n .record = some k)
    (h : s.resultFor x k = some res) : s.recordStep x n = s.recordResult x r k res := by
  simp only [State.recordStep, hr, hk, h]

theorem State.recordStep_silent {s : State} {x : CloseContext} {n : JunctionNumber} {r : Junction} {k : OwnClaim}
    (hr : s.junction? n = some r) (hk : s.claim? n .record = some k) (h : s.resultFor x k = none) :
    s.recordStep x n = s := by
  simp only [State.recordStep, hr, hk, h]

theorem State.resultFor_eq {s : State} {k : OwnClaim} {tag : Byte} (x : CloseContext) (h : k.tag = some tag) :
    s.resultFor x k =
      if !k.mark && s.publisher.lastChoice.any (fun d => d.tag == tag) then
        ((x.results.find? (fun p => p.1 == tag)).map (·.2)).join
      else none := by
  rw [State.resultFor, h]

theorem State.resultFor_none {s : State} {x : CloseContext} {k : OwnClaim} {tag : Byte} (h : k.tag = some tag)
    (hnone : k.mark = true ∨ (∀ d ∈ s.publisher.lastChoice, d.tag ≠ tag) ∨ ∀ p ∈ x.results, p.1 ≠ tag) :
    s.resultFor x k = none := by
  rw [State.resultFor_eq x h]
  rcases hnone with hmark | hchoice | hresults
  · exact if_neg (by simp [hmark])
  · exact if_neg (by simpa using fun _ => hchoice)
  · rw [List.find?_eq_none.2 fun p hp => by simpa using hresults p hp]
    exact ite_self _

theorem State.resultFor_first {s : State} {x : CloseContext} {k : OwnClaim} {tag : Byte}
    {pre post : List (Byte × Option SeatResult)} {res : Option SeatResult} (h : k.tag = some tag)
    (hmark : k.mark = false) (hchoice : ∃ d ∈ s.publisher.lastChoice, d.tag = tag)
    (hresults : x.results = pre ++ (tag, res) :: post) (hpre : ∀ p ∈ pre, p.1 ≠ tag) :
    s.resultFor x k = res := by
  have hfind : x.results.find? (fun p => p.1 == tag) = some (tag, res) := by
    rw [hresults, List.find?_append, List.find?_eq_none.2 fun p hp => by simpa using hpre p hp]
    simp
  rw [State.resultFor_eq x h, if_pos (by simpa [hmark] using hchoice), hfind]
  rfl

/-! ### The secondary claim of a pending amendment (R86 to R88) -/

theorem State.amendmentDue_iff {s : State} {x : CloseContext} {r : Junction} {a : Amendment} :
    s.amendmentDue x r a = true ↔
      ahead (r.fields.commitFrame s.lead) x.hf = false ∨ ahead (a.fields.commitFrame s.lead) x.hf = false := by
  simp [State.amendmentDue]

theorem State.secondaryStep_due {s : State} {x : CloseContext} {n : JunctionNumber} {r : Junction} {a : Amendment}
    (hr : s.junction? n = some r) (ha : r.pending = some a) (hdue : s.amendmentDue x r a = true) :
    s.secondaryStep x n = s.lapse n .commitFrame := by
  simp only [State.secondaryStep, hr, ha, hdue, if_true]

theorem State.secondaryStep_settles {s : State} {x : CloseContext} {n : JunctionNumber} {r : Junction} {a : Amendment}
    {k : OwnClaim} (hr : s.junction? n = some r) (ha : r.pending = some a) (hdue : ¬ s.amendmentDue x r a = true)
    (hk : s.claim? n .secondary = some k) : s.secondaryStep x n = s.settleSecondary x r a k := by
  simp only [State.secondaryStep, hr, ha, hk]
  rw [if_neg hdue]

theorem State.settleSecondary_silent {s : State} {x : CloseContext} {r : Junction} {a : Amendment} {k : OwnClaim}
    (h : s.resultFor x k = none) : s.settleSecondary x r a k = s := by
  rw [State.settleSecondary, h]

theorem State.settleSecondary_result {s : State} {x : CloseContext} {r : Junction} {a : Amendment} {k : OwnClaim}
    {res : SeatResult} (h : s.resultFor x k = some res) : s.settleSecondary x r a k =
      if x.settle ≤ settled x res (k.settle.getD 0) then s.adopt r a
      else s.updateClaim r.number .secondary
        (fun c => { c with settle := some (settled x res (k.settle.getD 0)) }) := by
  rw [State.settleSecondary, h]

/-- The secondary claim of an adopted amendment as the record claim it becomes. -/
def OwnClaim.adopted (k : OwnClaim) : OwnClaim := { k with role := .record, cls := .locked, settle := none }

theorem OwnClaim.adopted_isOf_record {k : OwnClaim} {n m : JunctionNumber} (h : k.isOf n .secondary = true) :
    k.adopted.isOf m .record = true ↔ n = m := by
  simp only [OwnClaim.isOf_iff, OwnClaim.adopted] at h ⊢
  simp [h.1]

/-- The own claims once the secondary claim of junction `n` has become its record claim. -/
def adoptClaims (n : JunctionNumber) (ks : List OwnClaim) : List OwnClaim :=
  (ks.filter (fun c => !c.isOf n .record)).map (fun c => if c.isOf n .secondary then c.adopted else c)

theorem State.adopt_claims (s : State) (r : Junction) (a : Amendment) :
    (s.adopt r a).publisher.claims = adoptClaims r.number s.publisher.claims := rfl

/-- The record claim after an adoption is the secondary claim before it. -/
theorem adoptClaims_record (n : JunctionNumber) (ks : List OwnClaim) :
    (adoptClaims n ks).find? (fun c => c.isOf n .record) =
      (ks.find? (fun c => c.isOf n .secondary)).map OwnClaim.adopted := by
  induction ks with
  | nil => rfl
  | cons k ks ih =>
    by_cases hs : k.isOf n .secondary = true
    · have hr : k.isOf n .record = false := by
        rw [OwnClaim.isOf_iff] at hs
        simp [OwnClaim.isOf, hs.2]
      have hbecomes : k.adopted.isOf n .record = true := (OwnClaim.adopted_isOf_record hs).2 rfl
      simp [adoptClaims, hs, hr, hbecomes]
    · by_cases hr : k.isOf n .record = true
      · simpa [adoptClaims, List.find?_cons, hs, hr] using ih
      · simpa [adoptClaims, List.find?_cons, hs, hr] using ih

theorem adoptClaims_secondary (n : JunctionNumber) (ks : List OwnClaim) :
    (adoptClaims n ks).find? (fun c => c.isOf n .secondary) = none := by
  refine List.find?_eq_none.2 fun c hc => ?_
  obtain ⟨k, -, rfl⟩ := List.mem_map.1 hc
  split
  · simp [OwnClaim.isOf, OwnClaim.adopted]
  · assumption

theorem State.adopt_spec {s : State} {r : Junction} {a : Amendment} {k : OwnClaim}
    (hk : s.claim? r.number .secondary = some k) :
    (s.adopt r a).table =
        insertByStart { r with fields := a.fields, promo := a.promo, pending := none } (removeNumber r.number s.table) ∧
      (s.adopt r a).claim? r.number .record = some { k with role := .record, cls := .locked, settle := none } ∧
      (s.adopt r a).claim? r.number .secondary = none ∧
      s.Posted (s.adopt r a) .amendAdopted (some r.number) 0 (a.fields.commitFrame s.lead) := by
  refine ⟨rfl, ?_, ?_, (State.post_posted _ _ _ _ _).of_eq rfl rfl⟩
  · rw [State.claim?, State.adopt_claims, adoptClaims_record]
    exact congrArg (Option.map OwnClaim.adopted) hk
  · rw [State.claim?, State.adopt_claims, adoptClaims_secondary]

/-- Settles O27: each result by the case it meets, the lapse, and the adoption of a pending amendment. -/
theorem openClaimSettlesAndLocks : Obligations.OpenClaimSettlesAndLocks := by
  refine ⟨fun s x r k res n hr hk hn hst hcase => ?_, fun s x r k alt hr hk hst hp ha => ?_, fun s x n r k hr hk =>
    ⟨fun res h => State.recordStep_result hr hk h, State.recordStep_silent hr hk⟩,
    fun s x k tag htag => ⟨State.resultFor_none htag, fun pre post res => State.resultFor_first htag⟩,
    fun s n r cause hr => ⟨(Acts.lapse s n cause).sameAround, State.lapse_spec cause hr⟩,
    fun s x r a k hr ha hk => ⟨fun hdue => ?_, fun hdue hnone => ?_, fun res hdue hres => ?_⟩⟩
  · refine ⟨(Acts.recordResult s x r k res).sameAround, fun hlt => ?_, fun hle => ?_⟩
    all_goals rw [State.recordResult_opened hst, State.openResult_settle hcase, hn, Option.getD_some]
    · rw [if_neg (show ¬ x.settle ≤ settled x res n from Nat.not_le.2 hlt)]
      exact ⟨State.claim?_updateClaim (f := fun c => { c with settle := some (settled x res n) }) hk (fun _ => rfl),
        rfl, rfl⟩
    · rw [if_pos (show x.settle ≤ settled x res n from hle)]
      exact State.lockClaim_spec hr hk
  · refine ⟨(Acts.recordResult s x r k _).sameAround, ?_⟩
    rw [State.recordResult_opened hst, State.openResult_switch hp ha]
    exact State.switchCampaign_spec _ hr hk
  · exact State.secondaryStep_due hr ha (State.amendmentDue_iff.2 hdue)
  · rw [State.secondaryStep_settles hr ha (fun h => hdue (State.amendmentDue_iff.1 h)) hk,
      State.settleSecondary_silent hnone]
  · dsimp only
    rw [State.secondaryStep_settles hr ha (fun h => hdue (State.amendmentDue_iff.1 h)) hk,
      State.settleSecondary_result hres]
    refine ⟨fun hlt => ?_, fun hle => ?_⟩
    · rw [if_neg (show ¬ x.settle ≤ settled x res (k.settle.getD 0) from Nat.not_le.2 hlt)]
      exact ⟨State.claim?_updateClaim
          (f := fun c => { c with settle := some (settled x res (k.settle.getD 0)) }) hk (fun _ => rfl),
        State.claim?_updateClaim_other (fun _ => rfl) (by simp), rfl, rfl⟩
    · rw [if_pos (show x.settle ≤ settled x res (k.settle.getD 0) from hle)]
      exact State.adopt_spec hk

end Sys2Proof.Machine

/-! PROOFS. The loss of a lock, the loss of a seat, and the forfeit (R79, R80, R84, R85). -/

namespace Sys2Proof.Machine

/-! ### Events that a raise posts -/

theorem State.raiseForJunction_coded {s : State} (n : AlarmName) (j : JunctionNumber)
    (h : s.reporting.events.length < 32) :
    (s.raiseForJunction n j).reporting.events.map Event.coded = s.reporting.events.map Event.coded ++
      [(.alarm, some j, detailBytes n.code ((s.reporting.alarms.get n).count + 1) 0)] := by
  have hroom : s.reporting.events.length < eventCapacity := h
  rw [State.raiseForJunction, State.raiseAlarm_room hroom]
  simp [Event.coded]

theorem State.raiseForJunction_length {s : State} (n : AlarmName) (j : JunctionNumber)
    (h : s.reporting.events.length < 32) :
    (s.raiseForJunction n j).reporting.events.length = s.reporting.events.length + 1 := by
  have hcoded := congrArg List.length (State.raiseForJunction_coded n j h)
  simpa using hcoded

theorem State.post_told {s : State} (k : EventKind) (j : Option JunctionNumber) (c v : BitVec 24)
    (h : s.reporting.events.length < 32) : (s.post k j c v).reporting.events.map Event.told =
      s.reporting.events.map Event.told ++ [(k, j, c, v)] := by
  have hroom : s.reporting.events.length < eventCapacity := h
  rw [State.post_reporting, Reporting.post_room hroom]
  simp [Event.told]

/-! ### A LOCKED record's claim is unseated (R84) -/

theorem State.recordResult_locked {s : State} {x : CloseContext} {r : Junction} {k : OwnClaim} {res : SeatResult}
    (h : r.state = .locked) : s.recordResult x r k res = if res = .seated then s else s.loseLock r res := by
  rw [State.recordResult, h]

/-- The part once the lock is lost, before anything is reported. -/
def State.unlocked (s : State) (r : Junction) : State :=
  (s.updateClaim r.number .record (fun c => { c with cls := .opened, settle := some 0 })).updateJunction r.number
    (fun r => { r with state := .opened })

/-- The part once the pending amendment has lapsed with the lock. -/
def State.unlockedLapsed (s : State) (r : Junction) : State :=
  if r.pending.isSome then (s.unlocked r).lapse r.number .lockLost else s.unlocked r

theorem State.loseLock_eq (s : State) (r : Junction) (res : SeatResult) : s.loseLock r res =
    ((s.unlockedLapsed r).post .lockLost (some r.number) (detailOf res.code) 0).raiseForJunction .seatConflict
      r.number := rfl

theorem State.unlockedLapsed_spec {s : State} {r : Junction} {k : OwnClaim} (hr : s.junction? r.number = some r)
    (hk : s.claim? r.number .record = some k) :
    (s.unlockedLapsed r).claim? r.number .record = some { k with cls := .opened, settle := some 0 } ∧
      (s.unlockedLapsed r).junction? r.number = some { r with state := .opened, pending := none } ∧
      (r.pending.isSome → (s.unlockedLapsed r).claim? r.number .secondary = none) := by
  have hclaim : (s.unlocked r).claim? r.number .record = some { k with cls := .opened, settle := some 0 } :=
    State.claim?_updateClaim (f := fun c => { c with cls := .opened, settle := some 0 }) hk (fun _ => rfl)
  have hjunction : (s.unlocked r).junction? r.number = some { r with state := .opened } :=
    State.junction?_updateJunction (s := s.updateClaim r.number .record _)
      (f := fun r => { r with state := .opened }) hr (fun _ => rfl)
  unfold State.unlockedLapsed
  by_cases hp : r.pending.isSome = true
  · obtain ⟨hj, hsecondary, hrecord, -⟩ := State.lapse_spec .lockLost hjunction
    rw [if_pos hp]
    exact ⟨hrecord.trans hclaim, hj, fun _ => hsecondary⟩
  · rw [if_neg hp]
    have hnone : r.pending = none := by simpa using hp
    exact ⟨hclaim, by rw [hjunction, hnone], fun h => absurd h hp⟩

theorem State.loseLock_alarm (s : State) (r : Junction) (res : SeatResult) :
    ((s.loseLock r res).reporting.alarms.get .seatConflict).flag = true ∧
      ((s.loseLock r res).reporting.alarms.get .seatConflict).detail = some (r.number.setWidth 24) := by
  rw [State.loseLock_eq, State.raiseForJunction_get _ _ (by decide)]
  exact ⟨rfl, rfl⟩

theorem State.loseLock_events {s : State} {r : Junction} (res : SeatResult) (hp : r.pending = none)
    (hroom : s.reporting.events.length < 31) : (s.loseLock r res).reporting.events.map Event.coded =
      s.reporting.events.map Event.coded ++ [(.lockLost, some r.number, detailOf res.code),
        (.alarm, some r.number, detailBytes AlarmName.seatConflict.code
          ((s.reporting.alarms.get .seatConflict).count + 1) 0)] := by
  have hquiet : s.unlockedLapsed r = s.unlocked r := if_neg (by simp [hp])
  have hroom' : (s.unlocked r).reporting.events.length < 32 := by
    have : (s.unlocked r).reporting = s.reporting := rfl
    rw [this]
    omega
  have hlength := State.post_length .lockLost (some r.number) (detailOf res.code) 0 hroom'
  rw [State.loseLock_eq, hquiet, State.raiseForJunction_coded _ _ (by rw [hlength]; exact Nat.succ_lt_succ hroom),
    State.post_coded _ _ _ _ hroom', State.post_get _ _ _ _ _ (by decide), List.append_assoc]
  rfl

/-! ### The claim of a committed record is unseated (R85) -/

theorem State.recordResult_committed {s : State} {x : CloseContext} {r : Junction} {k : OwnClaim} {res : SeatResult}
    (h : r.state.isCommitted = true) : s.recordResult x r k res = s.committedResult r.number k res := by
  cases hst : r.state with
  | planned => simp [hst, RecordState.isCommitted, RecordState.isOnAir] at h
  | opened => simp [hst, RecordState.isCommitted, RecordState.isOnAir] at h
  | locked => simp [hst, RecordState.isCommitted, RecordState.isOnAir] at h
  | primed => rw [State.recordResult, hst]
  | squeezeIn => rw [State.recordResult, hst]
  | hold => rw [State.recordResult, hst]
  | release => rw [State.recordResult, hst]

theorem State.committedResult_seated {s : State} (n : JunctionNumber) (k : OwnClaim) :
    s.committedResult n k .seated = s.updateClaim n .record (fun c => { c with conflict := false }) := if_pos rfl

/-- The part once the loss of a seat has been reported. -/
def State.reportUnseated (s : State) (n : JunctionNumber) (res : SeatResult) : State :=
  (s.raiseForJunction .seatConflict n).post .claimUnseated (some n) (detailOf res.code) 0

theorem State.committedResult_unseated {s : State} {n : JunctionNumber} {k : OwnClaim} {res : SeatResult}
    (h : res ≠ .seated) : s.committedResult n k res =
      if k.conflict then s else (s.reportUnseated n res).updateClaim n .record (fun c => { c with conflict := true }) :=
  if_neg h

theorem State.committedResult_table (s : State) (n : JunctionNumber) (k : OwnClaim) (res : SeatResult) :
    (s.committedResult n k res).table = s.table := by
  unfold State.committedResult
  split
  · rfl
  · split <;> rfl

theorem State.reportUnseated_alarm (s : State) (n : JunctionNumber) (res : SeatResult) :
    ((s.reportUnseated n res).reporting.alarms.get .seatConflict).flag = true ∧
      ((s.reportUnseated n res).reporting.alarms.get .seatConflict).detail = some (n.setWidth 24) := by
  rw [State.reportUnseated, State.post_get _ _ _ _ _ (by decide), State.raiseForJunction_get _ _ (by decide)]
  exact ⟨rfl, rfl⟩

theorem State.reportUnseated_events {s : State} (n : JunctionNumber) (res : SeatResult)
    (hroom : s.reporting.events.length < 31) : (s.reportUnseated n res).reporting.events.map Event.coded =
      s.reporting.events.map Event.coded ++ [(.alarm, some n, detailBytes AlarmName.seatConflict.code
          ((s.reporting.alarms.get .seatConflict).count + 1) 0), (.claimUnseated, some n, detailOf res.code)] := by
  have hlength := State.raiseForJunction_length (s := s) .seatConflict n (by omega)
  rw [State.reportUnseated, State.post_coded _ _ _ _ (by omega), State.raiseForJunction_coded _ _ (by omega),
    List.append_assoc]
  rfl

/-! ### The lapse of the amendments of several records (R88) -/

/-- `t` is `s` once the amendments of the junctions `ns` have lapsed. -/
structure State.Lapsed (s : State) (cause : LapseCause) (ns : List JunctionNumber) (t : State) : Prop where
  rest : t = { s with table := t.table, publisher := t.publisher, reporting := t.reporting }
  table : t.table = s.table.map (fun r => if r.number ∈ ns then { r with pending := none } else r)
  publisher : t.publisher = { s.publisher with
    claims := s.publisher.claims.filter (fun k => ns.all (fun n => !k.isOf n .secondary)) }
  events : s.reporting.events.length + ns.length ≤ 32 →
    t.reporting.events.map Event.told = s.reporting.events.map Event.told ++
      ns.map (fun n => (.amendLapsed, some n, detailOf cause.code, 0))

theorem State.lapseAll_lapsed (s : State) (cause : LapseCause) (ns : List JunctionNumber) :
    s.Lapsed cause ns (s.lapseAll cause ns) := by
  induction ns generalizing s with
  | nil => exact ⟨rfl, by simp [State.lapseAll], by simp [State.lapseAll], by simp [State.lapseAll]⟩
  | cons n ns ih =>
    have h := ih (s.lapse n cause)
    rw [State.lapseAll]
    generalize (s.lapse n cause).lapseAll cause ns = t at h
    refine ⟨h.rest, ?_, ?_, fun hroom => ?_⟩
    · have hfirst : (s.lapse n cause).table =
          s.table.map (fun r => if r.number == n then { r with pending := none } else r) := rfl
      rw [h.table, hfirst, List.map_map]
      refine List.map_congr_left fun r _ => ?_
      by_cases hn : r.number = n
      · simp [hn]
      · simp [hn]
    · have hfirst : (s.lapse n cause).publisher =
          { s.publisher with claims := s.publisher.claims.filter (fun c => !c.isOf n .secondary) } := rfl
      rw [h.publisher, hfirst]
      simp [List.filter_filter, Bool.and_comm]
    · rw [List.length_cons] at hroom
      have hlt : s.reporting.events.length < 32 := by omega
      have hfirst : (s.lapse n cause).reporting.events.map Event.told =
          s.reporting.events.map Event.told ++ [(.amendLapsed, some n, detailOf cause.code, 0)] :=
        State.post_told (s := (s.updateJunction n (fun r => { r with pending := none })).dropClaim n .secondary)
          .amendLapsed (some n) (detailOf cause.code) 0 hlt
      have hlength : (s.lapse n cause).reporting.events.length = s.reporting.events.length + 1 := by
        simpa using congrArg List.length hfirst
      rw [h.events (by omega), hfirst, List.append_assoc]
      rfl

/-! ### The forfeit (R79, R80) -/

theorem PresenceEntry.lacks_iff {e : PresenceEntry} {own : Nat} : e.lacks own = true ↔
    e.state = .present ∧ ∃ h, e.heard = some h ∧ h.bitmap.getLsbD own = false := by
  simp [PresenceEntry.lacks, Option.any_eq_true]

theorem CueBus.lackingStation_none {b : CueBus} {own : Nat}
    (h : ∀ i, ¬ (i < 16 ∧ i ≠ own ∧ (b.entry i).lacks own = true)) : b.lackingStation own = none := by
  refine List.find?_eq_none.2 fun i hi hlacks => h i ⟨List.mem_range.1 hi, ?_⟩
  simpa using hlacks

theorem CueBus.lackingStation_first {b : CueBus} {own peer : Nat} (hpeer : peer < 16) (hown : peer ≠ own)
    (hlacks : (b.entry peer).lacks own = true)
    (hfirst : ∀ i < peer, ¬ (i < 16 ∧ i ≠ own ∧ (b.entry i).lacks own = true)) :
    b.lackingStation own = some peer := by
  refine List.find?_range_eq_some.2 ⟨by simp [hown, hlacks], List.mem_range.2 hpeer, fun i hi => ?_⟩
  have := hfirst i hi
  simp only [not_and, Bool.not_eq_true] at this
  by_cases hi' : i = own
  · simp [hi']
  · simp [this (by omega) hi']

theorem State.repostAll_record (s : State) (ns : List JunctionNumber) (n : JunctionNumber) :
    (s.repostAll ns).claim? n .record =
      (s.claim? n .record).map (fun k => if ns.contains n then k.repost else k) := by
  unfold State.claim? State.repostAll
  dsimp only
  rw [find?_map_of_invariant _ _ _ fun k => by split <;> rfl]
  cases h : s.publisher.claims.find? (fun c => c.isOf n .record) with
  | none => rfl
  | some k =>
    obtain ⟨hn, hrole⟩ := OwnClaim.isOf_iff.1 (List.find?_some (p := fun c => OwnClaim.isOf c n .record) h)
    simp [hn, hrole]

/-- The part once the claims are reposted and the amendments have lapsed, before FORFEIT is posted. -/
def State.standingLost (s : State) : State :=
  (s.repostAll (s.numbersWhere (fun r => r.state.forfeits))).lapseAll .forfeit
    (s.numbersWhere (fun r => r.pending.isSome))

theorem State.forfeit_eq (s : State) (peer : Nat) : s.forfeit peer =
    if (s.numbersWhere (fun r => r.state.forfeits)).isEmpty then s.standingLost
    else s.standingLost.post .forfeit none (detailNat peer)
      (detailNat (s.numbersWhere (fun r => r.state.forfeits)).length) := rfl

theorem State.standingLost_lapsed (s : State) : (s.repostAll (s.numbersWhere (fun r => r.state.forfeits))).Lapsed
    .forfeit (s.numbersWhere (fun r => r.pending.isSome)) s.standingLost := State.lapseAll_lapsed _ _ _

/-- FORFEIT is all that is posted besides. -/
theorem State.forfeit_rest (s : State) (peer : Nat) :
    s.forfeit peer = { s.standingLost with reporting := (s.forfeit peer).reporting } := by
  rw [State.forfeit_eq]
  split <;> rfl

theorem State.mem_numbersWhere {s : State} {p : Junction → Bool} {n : JunctionNumber} :
    n ∈ s.numbersWhere p ↔ ∃ r ∈ s.table, p r = true ∧ r.number = n := by
  simp [State.numbersWhere, and_assoc]

theorem State.standingLost_table (s : State) : s.standingLost.table = s.table.map (fun r => { r with
    state := if r.state = .opened ∨ r.state = .locked then .opened else r.state, pending := none }) := by
  have hrepost : (s.repostAll (s.numbersWhere (fun r => r.state.forfeits))).table =
      s.table.map (fun r => if r.state.forfeits then { r with state := .opened } else r) := rfl
  rw [s.standingLost_lapsed.table, hrepost, List.map_map]
  refine List.map_congr_left fun r hr => ?_
  have hnone (hout : r.number ∉ s.numbersWhere (fun r => r.pending.isSome)) : r.pending = none := by
    simpa using fun h => hout (State.mem_numbersWhere.2 ⟨r, hr, h, rfl⟩)
  by_cases hst : r.state = .opened ∨ r.state = .locked
  · have hforfeits : r.state.forfeits = true := by simpa [RecordState.forfeits] using hst
    simp only [Function.comp, hforfeits, if_true, if_pos hst]
    split
    · rfl
    · next hout => rw [hnone hout]
  · have hforfeits : ¬ r.state.forfeits = true := by simpa [RecordState.forfeits] using hst
    simp only [Function.comp, if_neg hforfeits, if_neg hst]
    split
    · rfl
    · next hout => rw [← hnone hout]

theorem State.standingLost_record (s : State) (n : JunctionNumber) : s.standingLost.claim? n .record =
    (s.claim? n .record).map (fun k =>
      if (s.numbersWhere (fun r => r.state.forfeits)).contains n then k.repost else k) := by
  rw [← State.repostAll_record, State.claim?, s.standingLost_lapsed.publisher]
  refine find?_filter_of_imp _ _ _ fun k hk => ?_
  have hrole := (OwnClaim.isOf_iff.1 hk).2
  simp [OwnClaim.isOf, hrole]

theorem State.standingLost_secondary {s : State} {r : Junction} (hr : r ∈ s.table) (hp : r.pending.isSome = true) :
    s.standingLost.claim? r.number .secondary = none := by
  rw [State.claim?, s.standingLost_lapsed.publisher]
  refine List.find?_eq_none.2 fun k hk hof => ?_
  have hout := List.all_eq_true.1 (List.mem_filter.1 hk).2 r.number (State.mem_numbersWhere.2 ⟨r, hr, hp, rfl⟩)
  rw [hof] at hout
  cases hout

theorem State.standingLost_events {s : State}
    (hroom : s.reporting.events.length + (s.table.filter (fun r => r.pending.isSome)).length ≤ 32) :
    s.standingLost.reporting.events.map Event.told = s.reporting.events.map Event.told ++
      (s.table.filter (fun r => r.pending.isSome)).map (fun r => (.amendLapsed, some r.number, detailNat 3, 0)) := by
  have hlapsed := s.standingLost_lapsed.events
  have hnumbers : s.numbersWhere (fun r => r.pending.isSome) =
      (s.table.filter (fun r => r.pending.isSome)).map (·.number) := rfl
  rw [hnumbers, List.length_map, List.map_map] at hlapsed
  exact hlapsed hroom

theorem State.forfeit_events {s : State} (peer : Nat)
    (hroom : s.reporting.events.length + (s.table.filter (fun r => r.pending.isSome)).length < 32) :
    (s.forfeit peer).reporting.events.map Event.told = s.reporting.events.map Event.told ++
      (s.table.filter (fun r => r.pending.isSome)).map (fun r => (.amendLapsed, some r.number, detailNat 3, 0)) ++
      (if s.table.filter (fun r => r.state.forfeits) = [] then [] else [(.forfeit, none, detailNat peer,
        detailNat (s.table.filter (fun r => r.state.forfeits)).length)]) := by
  have hlost := State.standingLost_events (s := s) (by omega)
  have hlength : s.standingLost.reporting.events.length =
      s.reporting.events.length + (s.table.filter (fun r => r.pending.isSome)).length := by
    simpa using congrArg List.length hlost
  rw [State.forfeit_eq]
  by_cases hnone : s.table.filter (fun r => r.state.forfeits) = []
  · rw [if_pos (by simp [State.numbersWhere, hnone]), if_pos hnone, List.append_nil, hlost]
  · rw [if_neg (by simpa [State.numbersWhere] using hnone), if_neg hnone, State.post_told _ _ _ _ (by omega), hlost,
      State.numbersWhere, List.length_map]

theorem State.stageForfeit_none {s : State} {x : CloseContext}
    (h : s.publisher.memberCloses ≠ 2 ∨ s.bus.lackingStation x.own = none) : s.stageForfeit x = s := by
  unfold State.stageForfeit
  rcases h with h | h
  · exact if_neg h
  · rw [h]
    exact ite_self _

theorem State.stageForfeit_some {s : State} {x : CloseContext} {peer : Nat} (hcloses : s.publisher.memberCloses = 2)
    (h : s.bus.lackingStation x.own = some peer) : s.stageForfeit x = s.forfeit peer := by
  rw [State.stageForfeit, if_pos hcloses, h]

/-- Settles O28: the loss of a lock, the loss of a seat, and the forfeit with the peer that it names. -/
theorem unseatedLockIsLost : Obligations.UnseatedLockIsLost := by
  refine ⟨fun s x r k res hr hk hst => ⟨fun hseated => ?_, fun hseated => ?_⟩, fun s x r k res hr hk hst => ?_,
    fun s x => ⟨fun hnone => State.stageForfeit_none ?_, fun peer hcloses hpeer hfirst => ?_⟩⟩
  · rw [State.recordResult_locked hst, if_pos hseated]
  · refine ⟨(Acts.recordResult s x r k res).sameAround, ?_⟩
    rw [State.recordResult_locked hst, if_neg hseated]
    obtain ⟨hclaim, hjunction, hsecondary⟩ := State.unlockedLapsed_spec hr hk
    obtain ⟨hflag, hdetail⟩ := State.loseLock_alarm s r res
    refine ⟨hclaim, hjunction, hflag, hdetail, hsecondary, fun hp hroom => ?_⟩
    have hcoded := congrArg (List.map fun p => (p.1, p.2.1)) (State.loseLock_events res hp hroom)
    rw [List.map_append, List.map_map, List.map_map] at hcoded
    exact hcoded
  · refine ⟨(Acts.recordResult s x r k res).sameAround, ?_⟩
    rw [State.recordResult_committed hst]
    refine ⟨State.committedResult_table _ _ _ _, fun hseated => ?_, fun hseated hc => ?_, fun hseated hc => ?_⟩
    · rw [hseated, State.committedResult_seated]
      exact ⟨State.claim?_updateClaim (f := fun c => { c with conflict := false }) hk (fun _ => rfl), rfl⟩
    · rw [State.committedResult_unseated hseated, if_pos hc]
    · rw [State.committedResult_unseated hseated, if_neg (by simp [hc])]
      obtain ⟨hflag, hdetail⟩ := State.reportUnseated_alarm s r.number res
      exact ⟨State.claim?_updateClaim (s := s.reportUnseated r.number res)
          (f := fun c => { c with conflict := true }) hk (fun _ => rfl),
        hflag, hdetail, fun hroom => ⟨_, State.reportUnseated_events r.number res hroom⟩⟩
  · refine hnone.imp_right fun h => CueBus.lackingStation_none fun i hi => h i ?_
    exact ⟨hi.1, hi.2.1, PresenceEntry.lacks_iff.1 hi.2.2⟩
  · obtain ⟨hlt, hown, hlacks⟩ := hpeer
    have hlowest : s.bus.lackingStation x.own = some peer :=
      CueBus.lackingStation_first hlt hown (PresenceEntry.lacks_iff.2 hlacks) fun i hi hl =>
        hfirst i hi ⟨hl.1, hl.2.1, PresenceEntry.lacks_iff.1 hl.2.2⟩
    dsimp only
    rw [State.stageForfeit_some hcloses hlowest]
    have hrest := s.forfeit_rest peer
    have hlapsed := s.standingLost_lapsed
    refine ⟨?_, ?_, ?_, fun r hr k hk => ?_, fun n hn => ?_, fun r hr => ?_, fun hroom => State.forfeit_events peer hroom⟩
    · rw [hrest, hlapsed.rest]
      rfl
    · rw [hrest]
      show s.standingLost.publisher = { s.publisher with claims := s.standingLost.publisher.claims }
      rw [hlapsed.publisher]
      rfl
    · rw [hrest]
      exact s.standingLost_table
    · rw [hrest]
      refine (s.standingLost_record r.number).trans ?_
      obtain ⟨hmem, hst⟩ := List.mem_filter.1 hr
      have hin : r.number ∈ s.numbersWhere (fun r => r.state.forfeits) :=
        State.mem_numbersWhere.2 ⟨r, hmem, hst, rfl⟩
      simp [hk, hin, OwnClaim.repost]
    · rw [hrest]
      refine (s.standingLost_record n).trans ?_
      have hout : n ∉ s.numbersWhere (fun r => r.state.forfeits) := fun hin => by
        obtain ⟨r, hr, hst, hrn⟩ := State.mem_numbersWhere.1 hin
        exact hn r (List.mem_filter.2 ⟨hr, hst⟩) hrn
      simp [hout]
    · rw [hrest]
      obtain ⟨hmem, hp⟩ := List.mem_filter.1 hr
      exact State.standingLost_secondary hmem hp

end Sys2Proof.Machine

/-! PROOFS. Seat resolution: the rank order, the walk, and what it seats (R63 to R70). -/

namespace Sys2Proof.Machine

/-! ### Rank (R65) -/

theorem ClaimClass.key_lt_iff (a b : ClaimClass) :
    a.key < b.key ↔ a = .onAir ∧ b ≠ .onAir ∨ a = .locked ∧ b = .opened := by
  cases a <;> cases b <;> decide

theorem ClaimClass.key_eq_iff (a b : ClaimClass) : a.key = b.key ↔ a = b := by
  cases a <;> cases b <;> decide

theorem OwnedClaim.ranksAhead_of_class {a b : OwnedClaim} (h : a.claim.cls.key ≠ b.claim.cls.key) :
    a.ranksAhead b = decide (a.claim.cls.key < b.claim.cls.key) := if_pos h

theorem OwnedClaim.ranksAhead_of_posted {a b : OwnedClaim} (h : a.claim.cls.key = b.claim.cls.key) :
    a.ranksAhead b = true ↔ ahead b.claim.posted a.claim.posted = true ∨
      (ahead a.claim.posted b.claim.posted = false ∧ ahead b.claim.posted a.claim.posted = false) ∧
        (a.owner < b.owner ∨ a.owner = b.owner ∧ a.claim.tag < b.claim.tag) := by
  rw [OwnedClaim.ranksAhead, if_neg (not_not.2 h)]
  cases hba : ahead b.claim.posted a.claim.posted with
  | true => simp
  | false =>
    cases hab : ahead a.claim.posted b.claim.posted with
    | true => simp
    | false =>
      by_cases howner : a.owner = b.owner
      · simp [howner]
      · simp [howner]

theorem OwnedClaim.ranksAhead_iff (a b : OwnedClaim) : a.ranksAhead b = true ↔
    (a.claim.cls = .onAir ∧ b.claim.cls ≠ .onAir ∨ a.claim.cls = .locked ∧ b.claim.cls = .opened) ∨
      a.claim.cls = b.claim.cls ∧
        (ahead b.claim.posted a.claim.posted = true ∨
          (ahead a.claim.posted b.claim.posted = false ∧ ahead b.claim.posted a.claim.posted = false) ∧
            (a.owner < b.owner ∨ a.owner = b.owner ∧ a.claim.tag < b.claim.tag)) := by
  rw [← ClaimClass.key_lt_iff, ← ClaimClass.key_eq_iff]
  by_cases h : a.claim.cls.key = b.claim.cls.key
  · rw [OwnedClaim.ranksAhead_of_posted h]
    simp [h]
  · rw [OwnedClaim.ranksAhead_of_class h]
    simp [h]

theorem precedence_le_of_walksBefore {live : List OwnedClaim} {a b : OwnedClaim} (h : walksBefore live a b = true) :
    precedence live a ≤ precedence live b := by
  unfold walksBefore at h
  split at h
  · omega
  · split at h
    · cases h
    · omega

theorem precedence_le_of_not_walksBefore {live : List OwnedClaim} {a b : OwnedClaim}
    (h : ¬ walksBefore live a b = true) : precedence live b ≤ precedence live a := by
  unfold walksBefore at h
  split at h
  · exact absurd rfl h
  · omega

theorem insertRanked_perm (live : List OwnedClaim) (c : OwnedClaim) (l : List OwnedClaim) :
    (insertRanked live c l).Perm (c :: l) := by
  induction l with
  | nil => exact List.Perm.refl _
  | cons x xs ih =>
    rw [insertRanked]
    split
    · exact List.Perm.refl _
    · exact (ih.cons x).trans (List.Perm.swap c x xs)

theorem sortRanked_perm (live l : List OwnedClaim) : (sortRanked live l).Perm l := by
  induction l with
  | nil => exact List.Perm.refl _
  | cons c cs ih => exact (insertRanked_perm live c _).trans (ih.cons c)

theorem insertRanked_sorted {live : List OwnedClaim} {l : List OwnedClaim} (c : OwnedClaim)
    (h : l.Pairwise (fun a b => precedence live a ≤ precedence live b)) :
    (insertRanked live c l).Pairwise (fun a b => precedence live a ≤ precedence live b) := by
  induction l with
  | nil => exact List.pairwise_singleton _ _
  | cons x xs ih =>
    obtain ⟨hx, hxs⟩ := List.pairwise_cons.1 h
    rw [insertRanked]
    split
    · next hbefore =>
      have hcx := precedence_le_of_walksBefore hbefore
      refine List.pairwise_cons.2 ⟨fun y hy => ?_, h⟩
      rcases List.mem_cons.1 hy with rfl | hy
      · exact hcx
      · exact hcx.trans (hx y hy)
    · next hbefore =>
      refine List.pairwise_cons.2 ⟨fun y hy => ?_, ih hxs⟩
      rcases List.mem_cons.1 ((insertRanked_perm live c xs).mem_iff.1 hy) with rfl | hy
      · exact precedence_le_of_not_walksBefore hbefore
      · exact hx y hy

theorem sortRanked_sorted (live l : List OwnedClaim) :
    (sortRanked live l).Pairwise (fun a b => precedence live a ≤ precedence live b) := by
  induction l with
  | nil => exact List.Pairwise.nil
  | cons c cs ih => exact insertRanked_sorted c ih

/-! ### The tests read the seated claims as a set (R67, R68) -/

theorem List.any_congr_mem {α : Type} {p q : List α} (h : ∀ t, t ∈ p ↔ t ∈ q) (f : α → Bool) : p.any f = q.any f := by
  rw [Bool.eq_iff_iff, List.any_eq_true, List.any_eq_true]
  simp only [h]

theorem passesCampaign_congr {p q : List OwnedClaim} (h : ∀ t, t ∈ p ↔ t ∈ q) (k : OwnedClaim) :
    passesCampaign p k = passesCampaign q k := by
  simp only [passesCampaign, List.any_congr_mem h]

theorem othersAt_congr {p q : List OwnedClaim} (h : ∀ t, t ∈ p ↔ t ∈ q) (owner : Nat) (x : Frame) :
    othersAt p owner x = othersAt q owner x := by
  simp only [othersAt, List.any_congr_mem h]

theorem passesBudget_congr {p q : List OwnedClaim} (h : ∀ t, t ∈ p ↔ t ∈ q) (limit : Nat) (k : OwnedClaim) :
    passesBudget limit p k = passesBudget limit q k := by
  rw [Bool.eq_iff_iff, passesBudget_iff_forall_frame, passesBudget_iff_forall_frame]
  simp only [othersAt_congr h]

theorem judgeSeat_congr {p q : List OwnedClaim} (h : ∀ t, t ∈ p ↔ t ∈ q) (limit : Nat) (k : OwnedClaim) :
    judgeSeat limit p k = judgeSeat limit q k := by
  simp only [judgeSeat, passesCampaign_congr h, passesBudget_congr h]

theorem judgeSeat_cases (limit : Nat) (placed : List OwnedClaim) (k : OwnedClaim) :
    (passesCampaign placed k = false → judgeSeat limit placed k = .unseatedCampaign) ∧
    (passesCampaign placed k = true → passesBudget limit placed k = false →
      judgeSeat limit placed k = .unseatedBudget) ∧
    (passesCampaign placed k = true → passesBudget limit placed k = true → judgeSeat limit placed k = .seated) := by
  refine ⟨fun hc => ?_, fun hc hb => ?_, fun hc hb => ?_⟩
  · simp [judgeSeat, hc]
  · simp [judgeSeat, hc, hb]
  · simp [judgeSeat, hc, hb]

theorem judgeSeat_eq_seated {limit : Nat} {placed : List OwnedClaim} {k : OwnedClaim}
    (h : judgeSeat limit placed k = .seated) :
    passesCampaign placed k = true ∧ passesBudget limit placed k = true := by
  cases hc : passesCampaign placed k with
  | false => simp [judgeSeat, hc] at h
  | true =>
    cases hb : passesBudget limit placed k with
    | false => simp [judgeSeat, hc, hb] at h
    | true => exact ⟨rfl, rfl⟩

/-! ### The walk (R66) -/

/-- The claims that a list of results seats. -/
def seatedOf (results : List (OwnedClaim × SeatResult)) : List OwnedClaim :=
  (results.filter (fun p => p.2 = .seated)).map (·.1)

theorem seatedOf_cons (c : OwnedClaim) (res : SeatResult) (results : List (OwnedClaim × SeatResult)) :
    seatedOf ((c, res) :: results) = if res = .seated then c :: seatedOf results else seatedOf results := by
  unfold seatedOf
  split
  · next h => simp [h]
  · next h => simp [h]

theorem walk_claims (limit : Nat) (placed cs : List OwnedClaim) : (walk limit placed cs).map (·.1) = cs := by
  induction cs generalizing placed with
  | nil => rfl
  | cons c cs ih => exact congrArg (c :: ·) (ih _)

/-- The claims seated once `c` has been judged. -/
def placedAfter (limit : Nat) (placed : List OwnedClaim) (c : OwnedClaim) : List OwnedClaim :=
  if judgeSeat limit placed c = .seated then c :: placed else placed

theorem walk_cons (limit : Nat) (placed : List OwnedClaim) (c : OwnedClaim) (cs : List OwnedClaim) :
    walk limit placed (c :: cs) =
      (c, judgeSeat limit placed c) :: walk limit (placedAfter limit placed c) cs := rfl

theorem mem_placedAfter {limit : Nat} {placed : List OwnedClaim} {c t : OwnedClaim}
    (results : List (OwnedClaim × SeatResult)) :
    (t ∈ placedAfter limit placed c ∨ t ∈ seatedOf results) ↔
      t ∈ placed ∨ t ∈ seatedOf ((c, judgeSeat limit placed c) :: results) := by
  rw [placedAfter, seatedOf_cons]
  split
  · simp only [List.mem_cons]
    tauto
  · exact Iff.rfl

/-- Each claim of the walk is judged against the claims seated before it. -/
theorem walk_split {limit : Nat} {placed cs : List OwnedClaim} {pre post : List (OwnedClaim × SeatResult)}
    {k : OwnedClaim} {res : SeatResult} (h : walk limit placed cs = pre ++ (k, res) :: post) :
    ∃ before, (∀ t, t ∈ before ↔ t ∈ placed ∨ t ∈ seatedOf pre) ∧ res = judgeSeat limit before k := by
  induction cs generalizing placed pre with
  | nil => simp [walk] at h
  | cons c cs ih =>
    rw [walk_cons] at h
    cases pre with
    | nil =>
      obtain ⟨hhead, -⟩ := List.cons.inj h
      obtain ⟨rfl, rfl⟩ := Prod.mk.inj hhead
      exact ⟨placed, by simp [seatedOf], rfl⟩
    | cons p pre =>
      obtain ⟨rfl, htail⟩ := List.cons.inj h
      obtain ⟨before, hmem, hres⟩ := ih htail
      exact ⟨before, fun t => (hmem t).trans (mem_placedAfter pre), hres⟩

/-- What holds of the seated claims at all times: no frame has more than C owners, and no two intersecting claims of
different owners share a campaign (R67, R68). -/
structure SeatedSound (limit : Nat) (placed : List OwnedClaim) : Prop where
  budget : ∀ x : Frame, stations.countP (fun o => placed.any (fun t => t.owner == o && t.holdsFrame x)) ≤ limit
  campaign : ∀ a ∈ placed, ∀ b ∈ placed, a.owner ≠ b.owner → a.meets b = true →
    a.claim.campaign = b.claim.campaign → a.claim.campaign = 0

theorem SeatedSound.nil (limit : Nat) : SeatedSound limit [] := by
  refine ⟨fun x => ?_, by simp⟩
  simp

theorem SeatedSound.congr {limit : Nat} {p q : List OwnedClaim} (h : ∀ t, t ∈ p ↔ t ∈ q) (hp : SeatedSound limit p) :
    SeatedSound limit q := by
  refine ⟨fun x => ?_, fun a ha b hb => hp.campaign a ((h a).2 ha) b ((h b).2 hb)⟩
  simpa only [List.any_congr_mem h] using hp.budget x

theorem countP_le_add {α : Type} (l : List α) {p q r : α → Bool} (h : ∀ a, p a = true → q a = true ∨ r a = true) :
    l.countP p ≤ l.countP q + l.countP r := by
  induction l with
  | nil => simp
  | cons a l ih =>
    simp only [List.countP_cons]
    have := h a
    grind

theorem countP_station_le_one (owner : Nat) : stations.countP (· == owner) ≤ 1 :=
  List.nodup_iff_count_le_one.1 List.nodup_range owner

theorem OwnedClaim.meets_comm {a b : OwnedClaim} (h : a.meets b = true) : b.meets a = true := by
  obtain ⟨x, ha, hb⟩ := OwnedClaim.meets_iff.1 h
  exact OwnedClaim.meets_iff.2 ⟨x, hb, ha⟩

/-- The owners at a frame once another claim is seated. -/
theorem owners_cons_le (placed : List OwnedClaim) (k : OwnedClaim) {x : Frame} :
    stations.countP (fun o => (k :: placed).any (fun t => t.owner == o && t.holdsFrame x)) ≤
      1 + othersAt placed k.owner x := by
  refine (countP_le_add stations (q := (· == k.owner)) fun o ho => ?_).trans
    (Nat.add_le_add_right (countP_station_le_one k.owner) _)
  by_cases hown : o = k.owner
  · exact .inl (by simp [hown])
  · refine .inr ?_
    have hne : ¬ k.owner = o := fun h => hown h.symm
    simpa [hown, hne] using ho

theorem SeatedSound.cons {limit : Nat} {placed : List OwnedClaim} {k : OwnedClaim} (h : SeatedSound limit placed)
    (hk : judgeSeat limit placed k = .seated) : SeatedSound limit (k :: placed) := by
  obtain ⟨hcampaign, hbudget⟩ := judgeSeat_eq_seated hk
  have hclear {t : OwnedClaim} (ht : t ∈ placed) (hother : t.owner ≠ k.owner) (hmeets : t.meets k = true)
      (hsame : t.claim.campaign = k.claim.campaign) : k.claim.campaign = 0 := by
    by_contra hzero
    exact Bool.eq_false_iff.1 ((passesCampaign_iff placed hzero).1 hcampaign t ht hother hsame) hmeets
  refine ⟨fun x => ?_, fun a ha b hb hother hmeets hsame => ?_⟩
  · by_cases hx : k.holdsFrame x = true
    · have := passesBudget_iff_forall_frame.1 hbudget x hx
      exact (owners_cons_le placed k).trans (by omega)
    · have hbefore := h.budget x
      simpa [hx] using hbefore
  · rcases List.mem_cons.1 ha with rfl | hain
    · rcases List.mem_cons.1 hb with rfl | hbin
      · exact absurd rfl hother
      · exact hclear hbin hother.symm (OwnedClaim.meets_comm hmeets) hsame.symm
    · rcases List.mem_cons.1 hb with rfl | hbin
      · exact hsame.trans (hclear hain hother hmeets hsame)
      · exact h.campaign a hain b hbin hother hmeets hsame

theorem SeatedSound.placedAfter {limit : Nat} {placed : List OwnedClaim} (h : SeatedSound limit placed)
    (c : OwnedClaim) : SeatedSound limit (placedAfter limit placed c) := by
  unfold Machine.placedAfter
  split
  · next hseated => exact h.cons hseated
  · exact h

/-- The walk keeps what holds of the seated claims. -/
theorem walk_sound {limit : Nat} {placed : List OwnedClaim} (cs : List OwnedClaim) (h : SeatedSound limit placed) :
    ∃ all, SeatedSound limit all ∧ ∀ t, t ∈ all ↔ t ∈ placed ∨ t ∈ seatedOf (walk limit placed cs) := by
  induction cs generalizing placed with
  | nil => exact ⟨placed, h, by simp [walk, seatedOf]⟩
  | cons c cs ih =>
    obtain ⟨all, hall, hmem⟩ := ih (h.placedAfter c)
    refine ⟨all, hall, fun t => (hmem t).trans ?_⟩
    rw [walk_cons]
    exact mem_placedAfter _

/-! ### What is written (R63, R64) -/

theorem resultAt_eq_none {c : OwnedClaim} {results : List (OwnedClaim × SeatResult)} {k : Nat}
    (h : c ∉ results.map (·.1)) : resultAt c results k = none := by
  induction results generalizing k with
  | nil => rfl
  | cons p results ih =>
    simp only [List.map_cons, List.mem_cons, not_or] at h
    rw [resultAt, if_neg (fun hc => h.1 hc.symm), ih h.2]

theorem resultAt_of_mem {c : OwnedClaim} {results : List (OwnedClaim × SeatResult)} (k : Nat)
    (h : c ∈ results.map (·.1)) : ∃ j res, results[j]? = some (c, res) ∧ resultAt c results k = some (res, k + j) := by
  induction results generalizing k with
  | nil => cases h
  | cons p results ih =>
    obtain ⟨d, res⟩ := p
    by_cases hd : d = c
    · exact ⟨0, res, by simp [hd], by simp [resultAt, hd]⟩
    · have hmem : c ∈ results.map (·.1) := (List.mem_cons.1 h).resolve_left fun hc => hd hc.symm
      obtain ⟨j, res, hj, hat⟩ := ih (k + 1) hmem
      refine ⟨j + 1, res, hj, ?_⟩
      rw [resultAt, if_neg hd, hat]
      congr 2
      omega

theorem Mirror.mem_liveClaims {m : Mirror} {hf : Frame} {k : OwnedClaim} : k ∈ m.liveClaims hf ↔
    ∃ c ∈ (m.entry k.owner).claims, c.claim = k.claim ∧ k.claim.live hf = true := by
  simp only [Mirror.liveClaims, List.mem_flatMap, List.mem_map, List.mem_filter, stations, List.mem_range]
  constructor
  · rintro ⟨i, -, c, ⟨hc, hlive⟩, rfl⟩
    exact ⟨c, hc, rfl, hlive⟩
  · rintro ⟨c, hc, hcl, hlive⟩
    refine ⟨k.owner, ?_, c, ⟨hc, hcl ▸ hlive⟩, by rw [hcl]⟩
    by_contra hge
    rw [Mirror.entry_of_ge m (Nat.not_lt.1 hge)] at hc
    cases hc

theorem Mirror.results_claims (m : Mirror) (limit : Nat) (hf : Frame) :
    (m.results limit hf).map (·.1) = rankOrder (m.liveClaims hf) := walk_claims _ _ _

theorem Mirror.results_perm (m : Mirror) (limit : Nat) (hf : Frame) :
    ((m.results limit hf).map (·.1)).Perm (m.liveClaims hf) := by
  rw [Mirror.results_claims]
  exact sortRanked_perm _ _

theorem Mirror.results_sorted (m : Mirror) (limit : Nat) (hf : Frame) : (m.results limit hf).Pairwise
    (fun p q => precedence (m.liveClaims hf) p.1 ≤ precedence (m.liveClaims hf) q.1) := by
  have hsorted := sortRanked_sorted (m.liveClaims hf) (m.liveClaims hf)
  rw [← rankOrder, ← Mirror.results_claims m limit hf] at hsorted
  exact (List.pairwise_map (R := fun a b => precedence (m.liveClaims hf) a ≤ precedence (m.liveClaims hf) b)).1 hsorted

theorem Mirror.results_sound (m : Mirror) (limit : Nat) (hf : Frame) :
    SeatedSound limit (seatedOf (m.results limit hf)) := by
  obtain ⟨all, hall, hmem⟩ := walk_sound (rankOrder (m.liveClaims hf)) (SeatedSound.nil limit)
  exact hall.congr fun t => (hmem t).trans (by simp [Mirror.results])

/-- A claim of an entry has a result exactly when it is live, with its place in the rank order. -/
theorem Mirror.judged_spec {m : Mirror} {i : Nat} {e : MirrorClaim} (limit : Nat) (hf : Frame)
    (he : e ∈ (m.entry i).claims) :
    let d := MirrorClaim.judged (m.results limit hf) i e
    (e.claim.live hf = false → d.seat = none ∧ d.rank = none) ∧
      (e.claim.live hf = true → ∃ (k : Nat) (res : SeatResult),
        (m.results limit hf)[k]? = some ({ owner := i, claim := e.claim }, res) ∧
          d.seat = some res ∧ d.rank = some (k + 1)) := by
  have hmem : { owner := i, claim := e.claim } ∈ (m.results limit hf).map (·.1) ↔ e.claim.live hf = true := by
    rw [(m.results_perm limit hf).mem_iff, Mirror.mem_liveClaims]
    exact ⟨fun ⟨_, _, _, hlive⟩ => hlive, fun hlive => ⟨e, he, rfl, hlive⟩⟩
  refine ⟨fun hdead => ?_, fun hlive => ?_⟩
  · have hnone : resultAt { owner := i, claim := e.claim } (m.results limit hf) 1 = none :=
      resultAt_eq_none fun hc => by simp [hmem.1 hc] at hdead
    simp [MirrorClaim.judged, hnone]
  · obtain ⟨k, res, hk, hat⟩ := resultAt_of_mem 1 (hmem.2 hlive)
    exact ⟨k, res, hk, by simp [MirrorClaim.judged, hat], by simp [MirrorClaim.judged, hat, Nat.add_comm]⟩

/-- Settles O26: the rank by its four keys, the walk, and the results written in the entries. -/
theorem seatResolutionLaw : Obligations.SeatResolutionLaw := by
  refine ⟨fun a b => OwnedClaim.ranksAhead_iff a b, fun m limit hf => ⟨m.results_perm limit hf,
    m.results_sorted limit hf, fun pre k res post hsplit => ?_, (m.results_sound limit hf).budget,
    (m.results_sound limit hf).campaign, rfl, fun i d hd => ?_, fun i => ?_⟩⟩
  · obtain ⟨before, hmem, rfl⟩ := walk_split hsplit
    have hsame : ∀ t, t ∈ before ↔ t ∈ seatedOf pre := fun t => (hmem t).trans (by simp)
    rw [judgeSeat_congr hsame]
    exact judgeSeat_cases _ _ _
  · rw [Mirror.resolved_entry] at hd
    obtain ⟨e, he, rfl⟩ := List.mem_map.1 hd
    have hjudged := Mirror.judged_spec limit hf he
    exact hjudged
  · rw [Mirror.resolved_entry]
    refine ⟨rfl, ?_⟩
    rw [List.map_map]
    rfl

end Sys2Proof.Machine

/-! PROOFS. The forms in which values travel: a record that stands at a place in a payload is read back from there
(R16, R17, R178, R180, R196, Chapter 11). -/

namespace Sys2Proof.Machine

/-! ### A run of bytes that stands in a payload -/

/-- The bytes `b` stand in the payload `p` from byte `i` on. -/
def Stands (b p : List Byte) (i : Nat) : Prop := b <+: p.drop i

theorem Stands.whole (p : List Byte) : Stands p p 0 := List.prefix_rfl

theorem Stands.append_iff {a b p : List Byte} {i : Nat} :
    Stands (a ++ b) p i ↔ Stands a p i ∧ Stands b p (i + a.length) := by
  unfold Stands
  constructor
  · rintro ⟨post, h⟩
    refine ⟨⟨b ++ post, by rw [← h, List.append_assoc]⟩, post, ?_⟩
    rw [← List.drop_drop, ← h, List.append_assoc, List.drop_left]
  · rintro ⟨⟨post, h⟩, post', h'⟩
    rw [← List.drop_drop, ← h, List.drop_left] at h'
    exact ⟨post', by rw [← h, ← h', List.append_assoc]⟩

theorem Stands.num1_eq {x : Byte} {b p : List Byte} {i : Nat} (h : Stands (x :: b) p i) : num1 p i = x.toNat := by
  obtain ⟨post, h⟩ := h
  have hx : p[i]? = some x := by
    rw [← List.head?_drop, ← h]
    rfl
  rw [num1, List.getD_eq_getElem?_getD, hx]
  rfl

theorem Stands.tail {x : Byte} {b p : List Byte} {i : Nat} (h : Stands (x :: b) p i) : Stands b p (i + 1) :=
  (Stands.append_iff (a := [x])).1 h |>.2

theorem byte1_toNat {n : Nat} : (byte1 n).toNat = n % 256 := BitVec.toNat_ofNat n 8

theorem Stands.num1_byte {n i : Nat} {b p : List Byte} (h : Stands (byte1 n :: b) p i) (hn : n < 256) :
    num1 p i = n := by
  rw [h.num1_eq, byte1_toNat, Nat.mod_eq_of_lt hn]

theorem Stands.num2_eq {n i : Nat} {p : List Byte} (h : Stands (bytes2 n) p i) (hn : n < 65536) : num2 p i = n := by
  have hhigh : num1 p i = n / 256 := h.num1_byte (by omega)
  have hlow : num1 p (i + 1) = n % 256 := h.tail.num1_eq.trans byte1_toNat
  rw [num2, hhigh, hlow]
  omega

theorem Stands.num3_eq {n i : Nat} {p : List Byte} (h : Stands (bytes3 n) p i) (hn : n < 16777216) :
    num3 p i = n := by
  have hhigh : num1 p i = n / 65536 := h.num1_byte (by omega)
  have hmid : num1 p (i + 1) = n / 256 % 256 := h.tail.num1_eq.trans byte1_toNat
  have hlow : num1 p (i + 1 + 1) = n % 256 := h.tail.tail.num1_eq.trans byte1_toNat
  rw [num3, num2, hhigh, hmid, hlow]
  omega

theorem Stands.num4_eq {n i : Nat} {p : List Byte} (h : Stands (bytes4 n) p i) (hn : n < 4294967296) :
    num4 p i = n := by
  have hhigh : num1 p i = n / 16777216 := h.num1_byte (by omega)
  have hrest : num1 p (i + 1) = n / 65536 % 256 := h.tail.num1_eq.trans byte1_toNat
  have hmid : num1 p (i + 1 + 1) = n / 256 % 256 := h.tail.tail.num1_eq.trans byte1_toNat
  have hlow : num1 p (i + 1 + 1 + 1) = n % 256 := h.tail.tail.tail.num1_eq.trans byte1_toNat
  rw [num4, num3, num2, hhigh, hrest, hmid, hlow]
  omega

theorem Stands.half_eq {v : Half} {p : List Byte} {i : Nat} (h : Stands (halfBytes v) p i) :
    BitVec.ofNat 16 (num2 p i) = v := by
  rw [Stands.num2_eq h v.isLt, BitVec.ofNat_toNat, BitVec.setWidth_eq]

theorem Stands.frame_eq {f : Frame} {p : List Byte} {i : Nat} (h : Stands (frameBytes f) p i) :
    BitVec.ofNat 24 (num3 p i) = f := by
  rw [Stands.num3_eq h f.isLt, BitVec.ofNat_toNat, BitVec.setWidth_eq]

/-! ### Codes -/

theorem ClaimClass.ofCode_code (c : ClaimClass) : ClaimClass.ofCode c.code.toNat = some c := by cases c <;> rfl
theorem Trigger.ofCode_code (t : Trigger) : Trigger.ofCode t.code.toNat = some t := by cases t <;> rfl
theorem CueAction.ofCode_code (a : CueAction) : CueAction.ofCode a.code.toNat = some a := by cases a <;> rfl
theorem LineRole.ofCode_code (r : LineRole) : LineRole.ofCode r.code.toNat = some r := by cases r <;> rfl
theorem ActiveEdge.ofCode_code (e : ActiveEdge) : ActiveEdge.ofCode e.code.toNat = some e := by cases e <;> rfl
theorem levelOfCode_code (l : Level) : levelOfCode (levelCode l).toNat = some l := by cases l <;> rfl

theorem MarkerSource.optionalCode_code (m : Option MarkerSource) :
    optionalCode MarkerSource.ofCode (codeOr0 MarkerSource.code m).toNat = some m := by
  cases m with
  | none => rfl
  | some m => cases m <;> rfl

theorem Fallback.optionalCode_code (f : Option Fallback) :
    optionalCode Fallback.ofCode (codeOr0 Fallback.code f).toNat = some f := by
  cases f with
  | none => rfl
  | some f => cases f <;> rfl

/-! ### Records of one length, one after the other -/

theorem Stands.getElem_flatten {α : Type} {encode : α → List Byte} {size i j : Nat} {p : List Byte} {l : List α}
    (hsize : ∀ a, (encode a).length = size) (h : Stands (l.map encode).flatten p i) (hj : j < l.length) :
    Stands (encode l[j]) p (i + size * j) := by
  induction l generalizing i j with
  | nil => cases hj
  | cons a l ih =>
    rw [List.map_cons, List.flatten_cons, Stands.append_iff, hsize] at h
    cases j with
    | zero => exact h.1
    | succ j =>
      have hrest := ih h.2 (Nat.lt_of_succ_lt_succ hj)
      have hplace : i + size + size * j = i + size * (j + 1) := by ring
      rwa [hplace] at hrest

/-! ### The beacon (R16, R17, Section 11.2) -/

theorem decodeClaim_eq {p : List Byte} {i : Nat} {c : Claim} (h : Stands c.encode p (9 + 13 * i)) :
    decodeClaim p i = some c := by
  simp only [Claim.encode, Stands.append_iff, List.length_append, List.length_cons, List.length_nil,
    frameBytes_length] at h
  obtain ⟨⟨⟨⟨hcodes, hposted⟩, hstart⟩, hstop⟩, hcampaign⟩ := h
  have hcls := hcodes.tail.num1_eq
  simp only [decodeClaim, hcls, ClaimClass.ofCode_code, Option.map_some]
  simp only [hposted.frame_eq, hstart.frame_eq, hstop.frame_eq, hcampaign.half_eq, hcodes.num1_eq, byte1,
    BitVec.ofNat_toNat, BitVec.setWidth_eq]

theorem decodeClaims_eq {p : List Byte} {cs : List Claim} (h : Stands (cs.map Claim.encode).flatten p 9) {n : Nat}
    (hn : n ≤ cs.length) : decodeClaims p n = some (cs.take n) := by
  induction n with
  | zero => rfl
  | succ n ih =>
    have hclaim : decodeClaim p n = some cs[n] :=
      decodeClaim_eq (Stands.getElem_flatten Claim.encode_length h hn)
    rw [decodeClaims, ih (by omega), hclaim, List.take_succ_eq_append_getElem hn]

theorem flatten_length_of_forall {l : List (List Byte)} {size : Nat} (h : ∀ b ∈ l, b.length = size) :
    l.flatten.length = size * l.length := by
  induction l with
  | nil => rfl
  | cons b l ih =>
    obtain ⟨hb, hl⟩ := List.forall_mem_cons.1 h
    rw [List.flatten_cons, List.length_append, hb, ih hl, List.length_cons, Nat.mul_succ, Nat.add_comm]

theorem encodeClaims_length {cs : List Claim} (h : cs.length ≤ 4) : (encodeClaims cs).length = 52 := by
  have hused : (cs.map Claim.encode).flatten.length = 13 * cs.length := by
    rw [flatten_length_of_forall (size := 13) (by simp), List.length_map]
  have hunused : (List.replicate (4 - cs.length) unusedClaim).flatten.length = 13 * (4 - cs.length) := by
    rw [flatten_length_of_forall (size := 13) (by simp [unusedClaim]), List.length_replicate]
  rw [encodeClaims, List.length_append, hused, hunused]
  omega

theorem Beacon.body_length {b : Beacon} (hf : Frame) (h : b.claims.length ≤ 4) : (b.body hf).length = 61 := by
  simp [Beacon.body, encodeClaims_length h]

theorem Beacon.encode_length {b : Beacon} (hf : Frame) (h : b.claims.length ≤ 4) : (b.encode hf).length = 63 := by
  simp [Beacon.encode, Beacon.body_length hf h]

/-- The places of a beacon's fields. -/
theorem Beacon.stands {b : Beacon} {hf : Frame} {p : List Byte} (h : Stands (b.body hf) p 0) :
    Stands [byte1 b.station, byte1 b.claims.length] p 0 ∧ Stands (halfBytes b.digest) p 2 ∧
      Stands (halfBytes b.bitmap) p 4 ∧ Stands (frameBytes hf) p 6 ∧
      Stands (b.claims.map Claim.encode).flatten p 9 := by
  simp only [Beacon.body, encodeClaims, Stands.append_iff, List.length_append, List.length_cons, List.length_nil,
    halfBytes_length, frameBytes_length] at h
  obtain ⟨⟨⟨⟨hcounts, hdigest⟩, hbitmap⟩, hsender⟩, hclaims, -⟩ := h
  exact ⟨hcounts, hdigest, hbitmap, hsender, hclaims⟩

/-- Settles O21: each field stands at its place of the beacon and is read back from there. -/
theorem beaconRoundTrip : Obligations.BeaconRoundTrip := by
  intro b hf hstation hfour hahead htags
  have hlength := Beacon.encode_length hf hfour
  refine ⟨hlength, ?_⟩
  have hcovered : (b.encode hf).take 61 = b.body hf := List.take_left' (Beacon.body_length hf hfour)
  have hwhole : Stands (b.body hf ++ halfBytes (crc16 (b.body hf))) (b.encode hf) 0 := Stands.whole _
  obtain ⟨hbody, hcheck⟩ := Stands.append_iff.1 hwhole
  rw [Beacon.body_length hf hfour] at hcheck
  obtain ⟨hcounts, hdigest, hbitmap, hsender, hclaims⟩ := Beacon.stands hbody
  generalize b.encode hf = p at hlength hcovered hcheck hcounts hdigest hbitmap hsender hclaims ⊢
  have hslot : num1 p 0 = b.station := hcounts.num1_byte hstation
  have hcount : num1 p 1 = b.claims.length := hcounts.tail.num1_byte (by omega)
  have hcrc : (crc16 (p.take 61)).toNat = num2 p 61 := by
    rw [hcovered]
    exact (Stands.num2_eq hcheck (BitVec.isLt _)).symm
  have hdecoded : decodeClaims p (num1 p 1) = some b.claims := by
    rw [hcount, decodeClaims_eq hclaims le_rfl, List.take_length]
  unfold goodBeacon
  rw [if_pos ⟨hlength, hcrc, hslot, hcount ▸ hfour⟩, hdecoded]
  dsimp only
  rw [if_pos ⟨List.all_eq_true.2 hahead, htags⟩, hdigest.half_eq, hbitmap.half_eq, hsender.frame_eq]

end Sys2Proof.Machine

/-! PROOFS. The payloads of PLAN and CONFIGURE are read back as they were sent (R178, R180, Sections 11.4, 11.5). -/

namespace Sys2Proof.Machine

/-! ### The layout record and the promo -/

/-- The numbers of a window fit their bytes. -/
def Window.Fits (w : Window) : Prop := w.x < 65536 ∧ w.y < 65536 ∧ w.width < 65536 ∧ w.height < 65536

theorem decodeWindow_eq {p : List Byte} {i : Nat} {w : Window} (h : Stands w.encode p i) (hfits : w.Fits) :
    decodeWindow p i = w := by
  obtain ⟨hx, hy, hwidth, hheight⟩ := hfits
  simp only [Window.encode, Stands.append_iff, List.length_append, bytes2_length] at h
  obtain ⟨⟨⟨atx, aty⟩, atw⟩, ath⟩ := h
  rw [decodeWindow, atx.num2_eq hx, aty.num2_eq hy, atw.num2_eq hwidth, ath.num2_eq hheight]

@[simp] theorem Window.encode_length (w : Window) : w.encode.length = 8 := rfl
@[simp] theorem Promo.encode_length (a : Promo) : a.encode.length = 9 := rfl
@[simp] theorem CuePoint.encode_length (k : CuePoint) : k.encode.length = 4 := rfl

theorem decodeLayout_eq {p : List Byte} {i : Nat} {l : Layout} (h : Stands l.encode p i) (hcredits : l.credits.Fits)
    (hpromo : l.promo.Fits) (hfill : l.fill < 256) : decodeLayout p i = l := by
  simp only [Layout.encode, Stands.append_iff, List.length_append, Window.encode_length] at h
  obtain ⟨⟨atcredits, atpromo⟩, atfill⟩ := h
  rw [decodeLayout, decodeWindow_eq atcredits hcredits, decodeWindow_eq atpromo hpromo, atfill.num1_byte hfill]

theorem decodePromo_eq {p : List Byte} {i : Nat} {a : Promo} (h : Stands a.encode p i)
    (hlength : a.length < 16777216) : decodePromo p i = a := by
  simp only [Promo.encode, Stands.append_iff, List.length_append, bytes4_length, halfBytes_length] at h
  obtain ⟨⟨atclip, atcampaign⟩, atlength⟩ := h
  rw [decodePromo, atclip.num4_eq a.clip.isLt, atcampaign.half_eq, atlength.num3_eq hlength, BitVec.ofNat_toNat,
    BitVec.setWidth_eq]

/-! ### The cue points -/

theorem decodeCue_eq {p : List Byte} {i : Nat} {k : CuePoint} (h : Stands k.encode p i) (hoffset : k.offset < 65536) :
    decodeCue p i = some k := by
  simp only [CuePoint.encode, Stands.append_iff, bytes2_length] at h
  obtain ⟨atoffset, atcodes⟩ := h
  have hline : num1 p (i + 2) = k.line.val := atcodes.num1_byte (by omega)
  have haction : CueAction.ofCode (num1 p (i + 3)) = some k.action := by
    rw [atcodes.tail.num1_eq, CueAction.ofCode_code]
  rw [decodeCue, dif_pos (by omega), haction, Option.map_some, atoffset.num2_eq hoffset]
  simp only [hline]

theorem decodeCues_eq {p : List Byte} {i : Nat} {cues : List CuePoint}
    (h : Stands (cues.map CuePoint.encode).flatten p i) (hoffset : ∀ k ∈ cues, k.offset < 65536) :
    decodeCues p i cues.length = some cues := by
  induction cues generalizing i with
  | nil => rfl
  | cons k cues ih =>
    obtain ⟨hk, hcues⟩ := List.forall_mem_cons.1 hoffset
    rw [List.map_cons, List.flatten_cons, Stands.append_iff, CuePoint.encode_length] at h
    rw [List.length_cons, decodeCues, decodeCue_eq h.1 hk, ih h.2 hcues]

/-! ### The field set -/

/-- The presence marks of a field set. -/
def FieldSet.marks (f : FieldSet) : Nat := (if f.alternate.isSome then 1 else 0) + (if f.layout.isSome then 2 else 0)

/-- The first 26 bytes of a field set as it travels. -/
def FieldSet.head (f : FieldSet) (n : JunctionNumber) : List Byte :=
  halfBytes n ++ [f.trigger.code, codeOr0 MarkerSource.code f.source] ++ frameBytes f.snom ++
    [byte1 f.early, byte1 f.rin] ++ bytes2 f.hold ++ bytes2 f.minHold ++
    [byte1 f.rout, codeOr0 Fallback.code f.fallback] ++ f.primary.encode ++ [byte1 f.marks, byte1 f.cues.length]

/-- The alternate promo as it travels, where there is one. -/
def alternateBytes : Option Promo → List Byte
  | some a => a.encode
  | none => []

/-- The layout as it travels, where there is one. -/
def layoutBytes : Option Layout → List Byte
  | some l => l.encode
  | none => []

theorem FieldSet.encode_eq (f : FieldSet) (n : JunctionNumber) : f.encode n =
    f.head n ++ alternateBytes f.alternate ++ layoutBytes f.layout ++ (f.cues.map CuePoint.encode).flatten := by
  cases ha : f.alternate <;> cases hl : f.layout <;> simp [FieldSet.encode, FieldSet.head, FieldSet.marks, ha, hl,
    alternateBytes, layoutBytes]

@[simp] theorem FieldSet.head_length (f : FieldSet) (n : JunctionNumber) : (f.head n).length = 26 := rfl

theorem alternateBytes_length (a : Option Promo) : (alternateBytes a).length = if a.isSome then 9 else 0 := by
  cases a <;> rfl

theorem layoutBytes_length (l : Option Layout) : (layoutBytes l).length = if l.isSome then 17 else 0 := by
  cases l <;> rfl

theorem FieldSet.marks_mod_two (f : FieldSet) : f.marks % 2 = if f.alternate.isSome then 1 else 0 := by
  unfold FieldSet.marks
  split <;> split <;> rfl

theorem FieldSet.marks_div_two (f : FieldSet) : f.marks / 2 % 2 = if f.layout.isSome then 1 else 0 := by
  unfold FieldSet.marks
  split <;> split <;> rfl

theorem FieldSet.marks_le (f : FieldSet) : f.marks ≤ 3 := by
  unfold FieldSet.marks
  split <;> split <;> decide

/-- What the marks and the count of a payload say of the field set that stands in it. -/
theorem FieldSet.marks_read {f : FieldSet} {p : List Byte} (h : num1 p 24 = f.marks) :
    hasAlternate p = f.alternate.isSome ∧ hasLayout p = f.layout.isSome := by
  rw [hasAlternate, hasLayout, h, f.marks_mod_two, f.marks_div_two]
  constructor
  · split <;> simp_all
  · split <;> simp_all

/-- The numbers of a field set fit their bytes. -/
structure FieldSet.Fits (f : FieldSet) : Prop where
  early : f.early < 256
  rin : f.rin < 256
  rout : f.rout < 256
  hold : f.hold < 65536
  minHold : f.minHold < 65536
  cues : f.cues.length < 256
  offsets : ∀ k ∈ f.cues, k.offset < 65536
  primary : f.primary.length < 16777216
  alternate : ∀ a, f.alternate = some a → a.length < 16777216
  layout : ∀ l, f.layout = some l → l.fill < 256 ∧ l.credits.Fits ∧ l.promo.Fits

/-- What the first 26 bytes of a payload say, where they are a field set's. -/
structure FieldSet.HeadRead (f : FieldSet) (n : JunctionNumber) (p : List Byte) : Prop where
  number : BitVec.ofNat 16 (num2 p 0) = n
  trigger : Trigger.ofCode (num1 p 2) = some f.trigger
  source : optionalCode MarkerSource.ofCode (num1 p 3) = some f.source
  snom : BitVec.ofNat 24 (num3 p 4) = f.snom
  early : num1 p 7 = f.early
  rin : num1 p 8 = f.rin
  hold : num2 p 9 = f.hold
  minHold : num2 p 11 = f.minHold
  rout : num1 p 13 = f.rout
  fallback : optionalCode Fallback.ofCode (num1 p 14) = some f.fallback
  primary : decodePromo p 15 = f.primary
  marks : num1 p 24 = f.marks
  count : num1 p 25 = f.cues.length

theorem FieldSet.Fits.headRead {f : FieldSet} {n : JunctionNumber} {p : List Byte} (hfits : f.Fits)
    (h : Stands (f.head n) p 0) : f.HeadRead n p := by
  simp only [FieldSet.head, Stands.append_iff, List.length_append, List.length_cons, List.length_nil,
    halfBytes_length, frameBytes_length, bytes2_length, Promo.encode_length] at h
  obtain ⟨⟨⟨⟨⟨⟨⟨⟨hnumber, hcodes⟩, hsnom⟩, hearly⟩, hhold⟩, hmin⟩, hrout⟩, hprimary⟩, hmarks⟩ := h
  have hthree := f.marks_le
  exact
    { number := hnumber.half_eq
      trigger := (congrArg _ hcodes.num1_eq).trans (Trigger.ofCode_code _)
      source := (congrArg _ hcodes.tail.num1_eq).trans (MarkerSource.optionalCode_code _)
      snom := hsnom.frame_eq
      early := hearly.num1_byte hfits.early
      rin := hearly.tail.num1_byte hfits.rin
      hold := hhold.num2_eq hfits.hold
      minHold := hmin.num2_eq hfits.minHold
      rout := hrout.num1_byte hfits.rout
      fallback := (congrArg _ hrout.tail.num1_eq).trans (Fallback.optionalCode_code _)
      primary := decodePromo_eq hprimary hfits.primary
      marks := hmarks.num1_byte (by omega)
      count := hmarks.tail.num1_byte hfits.cues }

/-- The parts of a field set after its first 26 bytes, as they are read back. -/
theorem FieldSet.Fits.rest_read {f : FieldSet} {p : List Byte} (hfits : f.Fits)
    (h : Stands (alternateBytes f.alternate ++ layoutBytes f.layout ++ (f.cues.map CuePoint.encode).flatten) p 26) :
    let layoutAt := if f.alternate.isSome then 35 else 26
    let cuesAt := if f.layout.isSome then layoutAt + 17 else layoutAt
    (if f.alternate.isSome then some (decodePromo p 26) else none) = f.alternate ∧
      (if f.layout.isSome then some (decodeLayout p layoutAt) else none) = f.layout ∧
      decodeCues p cuesAt f.cues.length = some f.cues := by
  dsimp only
  rw [Stands.append_iff, Stands.append_iff, List.length_append, alternateBytes_length, layoutBytes_length] at h
  obtain ⟨⟨halternate, hlayout⟩, hcues⟩ := h
  refine ⟨?_, ?_, ?_⟩
  · cases ha : f.alternate with
    | none => rfl
    | some a =>
      rw [ha] at halternate
      exact congrArg some (decodePromo_eq halternate (hfits.alternate a ha))
  · have hplace : 26 + (if f.alternate.isSome then 9 else 0) = if f.alternate.isSome then 35 else 26 := by split <;> rfl
    rw [hplace] at hlayout
    cases hl : f.layout with
    | none => rfl
    | some l =>
      rw [hl] at hlayout
      obtain ⟨hfill, hcredits, hpromo⟩ := hfits.layout l hl
      exact congrArg some (decodeLayout_eq hlayout hcredits hpromo hfill)
  · have hplace : 26 + ((if f.alternate.isSome then 9 else 0) + (if f.layout.isSome then 17 else 0)) =
        if f.layout.isSome then (if f.alternate.isSome then 35 else 26) + 17
          else if f.alternate.isSome then 35 else 26 := by
      split <;> split <;> rfl
    rw [hplace] at hcues
    exact decodeCues_eq hcues hfits.offsets

theorem FieldSet.encode_length (f : FieldSet) (n : JunctionNumber) : (f.encode n).length =
    26 + (if f.alternate.isSome then 9 else 0) + (if f.layout.isSome then 17 else 0) + 4 * f.cues.length := by
  have hcues : (f.cues.map CuePoint.encode).flatten.length = 4 * f.cues.length := by
    rw [flatten_length_of_forall (size := 4) (by simp), List.length_map]
  rw [FieldSet.encode_eq, List.length_append, List.length_append, List.length_append, FieldSet.head_length,
    alternateBytes_length, layoutBytes_length, hcues]

/-- A field set that fits its bytes is read back as it was sent. -/
theorem FieldSet.Fits.round_trip {f : FieldSet} (n : JunctionNumber) (hfits : f.Fits) :
    fieldSetFits (f.encode n) = true ∧ payloadNumber (f.encode n) = n ∧ decodeFieldSet (f.encode n) = some f := by
  have hlength := f.encode_length n
  have hwhole : Stands (f.head n ++ (alternateBytes f.alternate ++ layoutBytes f.layout ++
      (f.cues.map CuePoint.encode).flatten)) (f.encode n) 0 := by
    rw [← List.append_assoc, ← List.append_assoc, ← FieldSet.encode_eq]
    exact Stands.whole _
  generalize f.encode n = p at hlength hwhole ⊢
  obtain ⟨hhead, hrest⟩ := Stands.append_iff.1 hwhole
  rw [FieldSet.head_length] at hrest
  have hread := hfits.headRead hhead
  obtain ⟨halternate, hlayout⟩ := FieldSet.marks_read hread.marks
  obtain ⟨ralternate, rlayout, rcues⟩ := hfits.rest_read hrest
  refine ⟨?_, hread.number, ?_⟩
  · have hcalled : p.length = fieldSetLength p := by
      rw [hlength, fieldSetLength, halternate, hlayout, hread.count]
    simp only [fieldSetFits, ← hcalled, beq_self_eq_true, Bool.and_true, decide_eq_true_eq]
    omega
  · unfold decodeFieldSet
    rw [if_pos (hread.marks ▸ f.marks_le), halternate, hlayout, hread.trigger, hread.source, hread.fallback,
      hread.count]
    dsimp only
    rw [rcues]
    dsimp only
    rw [ralternate, rlayout, hread.snom, hread.early, hread.rin, hread.hold, hread.minHold, hread.rout, hread.primary]

/-! ### The configuration record -/

theorem decodeFour_eq {α : Type} {ofCode : Nat → Option α} {code : α → Byte} {p : List Byte} {i : Nat} {x : Four α}
    (hcode : ∀ a, ofCode (code a).toNat = some a) (h : Stands (x.toList.map code) p i) :
    decodeFour ofCode p i = some x := by
  have h0 := h.num1_eq
  have h1 := h.tail.num1_eq
  have h2 := h.tail.tail.num1_eq
  have h3 := h.tail.tail.tail.num1_eq
  simp only [decodeFour, h0, h1, h2, h3, hcode]

/-- The numbers of a configuration record in range fit their bytes. -/
theorem Configuration.inRange_fits {c : Configuration} (h : c.inRange = true) :
    c.station < 256 ∧ c.slots < 256 ∧ c.concurrency < 256 ∧ c.settle < 256 ∧ c.horizon < 65536 ∧ c.lead < 256 ∧
      c.depth < 256 := by
  simp only [Configuration.inRange, Bool.and_eq_true, decide_eq_true_eq, List.contains_cons, List.contains_nil,
    Bool.or_eq_true, beq_iff_eq, Bool.or_false] at h
  omega

/-- The places of a configuration record's fields. -/
theorem Configuration.stands {c : Configuration} {p : List Byte} (h : Stands c.encode p 0) :
    Stands [byte1 c.station, byte1 c.slots, byte1 c.concurrency, byte1 c.settle] p 0 ∧
      Stands (bytes2 c.horizon) p 4 ∧ Stands [byte1 c.lead, byte1 c.depth] p 6 ∧
      Stands (c.roles.toList.map LineRole.code) p 8 ∧ Stands (c.edges.toList.map ActiveEdge.code) p 12 ∧
      Stands (halfBytes c.startCode) p 16 ∧ Stands (halfBytes c.releaseCode) p 18 ∧
      Stands (c.rests.toList.map levelCode) p 20 := by
  simp only [Configuration.encode, Stands.append_iff, List.length_append, List.length_cons, List.length_nil,
    List.length_map, Four.toList_length, halfBytes_length, bytes2_length] at h
  obtain ⟨⟨⟨⟨⟨⟨⟨hcounts, hhorizon⟩, hlead⟩, hroles⟩, hedges⟩, hstart⟩, hrelease⟩, hrests⟩ := h
  exact ⟨hcounts, hhorizon, hlead, hroles, hedges, hstart, hrelease, hrests⟩

/-- A configuration record in range is read back as it was sent. -/
theorem Configuration.round_trip {c : Configuration} (h : c.inRange = true) :
    decodeConfiguration c.encode = some c := by
  obtain ⟨hstation, hslots, hconcurrency, hsettle, hhorizon, hlead, hdepth⟩ := Configuration.inRange_fits h
  obtain ⟨atcounts, athorizon, atlead, atroles, atedges, atstart, atrelease, atrests⟩ :=
    Configuration.stands (Stands.whole c.encode)
  generalize c.encode = p at atcounts athorizon atlead atroles atedges atstart atrelease atrests ⊢
  unfold decodeConfiguration
  rw [decodeFour_eq LineRole.ofCode_code atroles, decodeFour_eq ActiveEdge.ofCode_code atedges,
    decodeFour_eq levelOfCode_code atrests]
  dsimp only
  rw [atcounts.num1_byte hstation, atcounts.tail.num1_byte hslots, atcounts.tail.tail.num1_byte hconcurrency,
    atcounts.tail.tail.tail.num1_byte hsettle, athorizon.num2_eq hhorizon, atlead.num1_byte hlead,
    atlead.tail.num1_byte hdepth, atstart.half_eq, atrelease.half_eq]
  exact if_pos h

/-- Settles O22: each field stands at its place of the payload and is read back from there. -/
theorem orderPayloadsRoundTrip : Obligations.OrderPayloadsRoundTrip := by
  refine ⟨fun n f hearly hrin hrout hhold hmin hcues hoffsets hprimary halternate hlayout => ?_,
    fun c h => ⟨c.encode_length, Configuration.round_trip h⟩⟩
  refine FieldSet.Fits.round_trip n ⟨hearly, hrin, hrout, hhold, hmin, hcues, hoffsets, hprimary, halternate,
    fun l hl => ?_⟩
  obtain ⟨hfill, hwindows⟩ := hlayout l hl
  exact ⟨hfill, hwindows l.credits (by simp), hwindows l.promo (by simp)⟩

end Sys2Proof.Machine

/-! PROOFS. The stages of the publisher at a close in MEMBER (R77, R91 to R93). -/

namespace Sys2Proof.Machine

/-! ### Each stage takes its records in turn (R77) -/

theorem State.stageSecondary_eq (s : State) (x : CloseContext) (ns : List JunctionNumber) :
    s.stageSecondary x ns = ns.foldl (fun t n => t.secondaryStep x n) s := by
  induction ns generalizing s with
  | nil => rfl
  | cons n ns ih => exact ih _

theorem State.stageRecords_eq (s : State) (x : CloseContext) (ns : List JunctionNumber) :
    s.stageRecords x ns = ns.foldl (fun t n => t.recordStep x n) s := by
  induction ns generalizing s with
  | nil => rfl
  | cons n ns ih => exact ih _

theorem State.stageCommit_eq (s : State) (x : CloseContext) (ns : List JunctionNumber) :
    s.stageCommit x ns = ns.foldl (fun t n => t.commitTest x n) s := by
  induction ns generalizing s with
  | nil => rfl
  | cons n ns ih => exact ih _

theorem State.passOverAll_eq (s : State) (cs : List Candidate) : s.passOverAll cs = cs.foldl State.passOver s := by
  induction cs generalizing s with
  | nil => rfl
  | cons c cs ih => exact ih _

theorem State.admitAll_eq (s : State) (cs : List Candidate) : s.admitAll cs = cs.foldl State.admitClaim s := by
  induction cs generalizing s with
  | nil => rfl
  | cons c cs ih => exact ih _

/-- The records of which a commit test is due. -/
def State.commitsDue (s : State) (lead : Nat) (x : CloseContext) : List JunctionNumber :=
  s.numbersWhere (fun r => r.state.isUncommitted && !ahead (r.fields.commitFrame lead) x.hf)

theorem State.stageResults_eq (s : State) (x : CloseContext) : s.stageResults x =
    let u := (s.numbersWhere (fun r => r.pending.isSome)).foldl (fun t n => t.secondaryStep x n) s
    (u.numbersWhere (fun _ => true)).foldl (fun t n => t.recordStep x n) u := by
  have hall (u : State) : u.numbersWhere (fun _ => true) = u.numbers := by
    rw [State.numbersWhere, List.filter_true, State.numbers]
  dsimp only
  rw [State.stageResults, State.stageSecondary_eq, State.stageRecords_eq, hall]

theorem State.stageCommits_eq (s : State) (x : CloseContext) {lead : Nat} (hlead : s.lead = lead) :
    s.stageCommits x = (s.commitsDue lead x).foldl (fun t n => t.commitTest x n) s := by
  subst hlead
  rw [State.stageCommits, State.stageCommit_eq]
  rfl

/-! ### The candidates and the choice (R91, R92) -/

theorem groupFive_eq (x : CloseContext) (r : Junction) : groupFive x r =
    if r.state = .opened then some (Candidate.claim r.number .record)
    else if r.state = .planned ∧ ahead r.fields.claimStart (x.hf + BitVec.ofNat 24 x.horizon) = false then
      some (Candidate.planned r.number)
    else none := by
  have hwithin : withinHorizon x r = !ahead r.fields.claimStart (x.hf + BitVec.ofNat 24 x.horizon) := rfl
  unfold groupFive
  cases hst : r.state with
  | planned => simp [hwithin]
  | opened => simp
  | locked => simp
  | primed => simp
  | squeezeIn => simp
  | hold => simp
  | release => simp

/-- The part before the chosen claims are published: those without a position passed over, the PLANNED records with
one admitted. -/
def State.admitted (s : State) (cands : List Candidate) : State :=
  (cands.take 4).foldl State.admitClaim ((cands.drop 4).foldl State.passOver s)

theorem State.stageChoice_eq (s : State) (x : CloseContext) : s.stageChoice x =
    (let u := s.admitted (s.candidates x)
     let chosen := (s.candidates x).take 4
     (u.publishAll x.hf (u.keptTags chosen) chosen, chosen)) := by
  rw [State.stageChoice, State.passOverAll_eq, State.admitAll_eq]
  rfl

/-! ### What becomes of a candidate (R91 to R93) -/

theorem State.passOver_secondary (s : State) (n : JunctionNumber) :
    s.passOver (.claim n .secondary) = s.lapse n .noPosition := rfl

theorem State.passOver_stays {s : State} {n : JunctionNumber} {r : Junction} (hr : s.junction? n = some r)
    (hst : r.state ≠ .opened) : s.passOver (.claim n .record) = s := by
  simp only [State.passOver, hr, if_neg hst]

theorem State.passOver_reverts {s : State} {n : JunctionNumber} {r : Junction} (hr : s.junction? n = some r)
    (hst : r.state = .opened) : s.passOver (.claim n .record) = s.revert n := by
  simp only [State.passOver, hr, if_pos hst]

theorem State.revert_spec {s : State} {n : JunctionNumber} {r : Junction} (hr : s.junction? n = some r)
    (hst : r.state = .opened) :
    s.revert n = { s with table := (s.revert n).table, publisher := (s.revert n).publisher } ∧
      (s.revert n).junction? n = some { r with state := .planned } ∧
      (s.revert n).publisher = { s.publisher with
        claims := s.publisher.claims.filter (fun k => !(k.junction == n && k.role == .record)) } := by
  refine ⟨rfl, ?_, rfl⟩
  have hreverted := State.junction?_updateJunction
    (f := fun r => if r.state = .opened then { r with state := .planned } else r) hr (fun r => by split <;> rfl)
  rw [if_pos hst] at hreverted
  exact hreverted

theorem State.admitClaim_planned {s : State} {n : JunctionNumber} {r : Junction} (hr : s.junction? n = some r) :
    s.admitClaim (.planned n) =
      (s.updateJunction n (fun r => { r with state := .opened })).addClaim r.newClaim := by
  simp only [State.admitClaim, hr]

theorem State.admitClaim_spec {s : State} {n : JunctionNumber} {r : Junction} (hr : s.junction? n = some r) :
    let t := s.admitClaim (.planned n)
    t = { s with table := t.table, publisher := t.publisher } ∧
      t.junction? n = some { r with state := .opened } ∧
      t.publisher = { s.publisher with claims := s.publisher.claims ++ [r.newClaim] } := by
  dsimp only
  rw [State.admitClaim_planned hr]
  exact ⟨rfl, State.junction?_updateJunction (f := fun r => { r with state := .opened }) hr (fun _ => rfl), rfl⟩

/-! ### Tags and publication (R92) -/

/-- The tag found is the first after the last issued that is not taken, if the search reaches one. -/
theorem nextTag_spec (taken : List Byte) (k : Nat) (t : Byte) : ∃ i ≤ k,
    nextTag taken k t = t + 1 + BitVec.ofNat 8 i ∧ (∀ j < i, t + 1 + BitVec.ofNat 8 j ∈ taken) ∧
      (i < k → nextTag taken k t ∉ taken) := by
  induction k generalizing t with
  | zero => exact ⟨0, le_rfl, by simp [nextTag], by simp, by simp⟩
  | succ k ih =>
    by_cases htaken : t + 1 ∈ taken
    · have hnext : nextTag taken (k + 1) t = nextTag taken k (t + 1) := if_pos (by simpa using htaken)
      have hshift (i : Nat) : t + 1 + 1 + BitVec.ofNat 8 i = t + 1 + BitVec.ofNat 8 (i + 1) := by
        rw [Nat.add_comm i 1, BitVec.ofNat_add, ← BitVec.add_assoc]
        rfl
      obtain ⟨i, hi, htag, hbefore, hfree⟩ := ih (t + 1)
      refine ⟨i + 1, by omega, by rw [hnext, htag, hshift], fun j hj => ?_, fun hlt => ?_⟩
      · cases j with
        | zero => simpa using htaken
        | succ j =>
          rw [← hshift]
          exact hbefore j (by omega)
      · rw [hnext]
        exact hfree (by omega)
    · have hnext : nextTag taken (k + 1) t = t + 1 := if_neg (by simpa using htaken)
      exact ⟨0, by omega, by simp [hnext], by simp, fun _ => by rwa [hnext]⟩

/-- Five tags in a row are not all taken by four. -/
theorem exists_free_tag {taken : List Byte} (t : Byte) (h : taken.length ≤ 4) :
    ¬ ∀ j < 5, t + BitVec.ofNat 8 j ∈ taken := by
  intro hall
  have hnodup : ((List.range 5).map (fun j => t + BitVec.ofNat 8 j)).Nodup := by
    refine List.Nodup.map_on (fun a ha b hb heq => ?_) List.nodup_range
    have := congrArg BitVec.toNat ((BitVec.add_right_inj _).1 heq)
    simp only [List.mem_range, BitVec.toNat_ofNat] at ha hb this
    omega
  have hsub : (List.range 5).map (fun j => t + BitVec.ofNat 8 j) ⊆ taken := fun b hb => by
    obtain ⟨j, hj, rfl⟩ := List.mem_map.1 hb
    exact hall j (List.mem_range.1 hj)
  have := (hnodup.subperm hsub).length_le
  simp only [List.length_map, List.length_range] at this
  omega

theorem nextTag_free {taken : List Byte} (last : Byte) (h : taken.length ≤ 4) :
    ∃ i < 5, nextTag taken 4 last = last + 1 + BitVec.ofNat 8 i ∧ nextTag taken 4 last ∉ taken ∧
      ∀ j < i, last + 1 + BitVec.ofNat 8 j ∈ taken := by
  obtain ⟨i, hi, htag, hbefore, hfree⟩ := nextTag_spec taken 4 last
  refine ⟨i, by omega, htag, fun htaken => ?_, hbefore⟩
  by_cases hlast : i < 4
  · exact hfree hlast htaken
  · refine exists_free_tag (last + 1) h fun j hj => ?_
    by_cases hji : j = i
    · rw [hji, ← htag]
      exact htaken
    · exact hbefore j (by omega)

/-- The part once the claim of a position has been published anew. -/
def State.published (s : State) (hf : Frame) (tag : Byte) (d : Candidate) : State :=
  let u := s.updateClaim d.key.1 d.key.2 (fun k => k.publish tag hf)
  { u with publisher := { u.publisher with lastTag := tag } }

theorem State.publishAll_kept {s : State} {hf : Frame} {taken : List Byte} {d : Candidate} {rest : List Candidate}
    {k : OwnClaim} (hk : s.claim? d.key.1 d.key.2 = some k) (hm : k.mark = false) :
    s.publishAll hf taken (d :: rest) = s.publishAll hf taken rest := by
  rw [State.publishAll, hk]
  exact if_neg (by simp [hm])

theorem State.publishAll_anew {s : State} {hf : Frame} {taken : List Byte} {d : Candidate} {rest : List Candidate}
    {k : OwnClaim} (hk : s.claim? d.key.1 d.key.2 = some k) (hm : k.mark = true) :
    s.publishAll hf taken (d :: rest) =
      (s.published hf (nextTag taken 4 s.publisher.lastTag) d).publishAll hf
        (nextTag taken 4 s.publisher.lastTag :: taken) rest := by
  rw [State.publishAll, hk]
  exact if_pos hm

theorem OwnClaim.publish_isOf (k : OwnClaim) (tag : Byte) (hf : Frame) (n : JunctionNumber) (role : ClaimRole) :
    (k.publish tag hf).isOf n role = k.isOf n role := rfl

theorem State.published_spec {s : State} {d : Candidate} {k : OwnClaim} (hf : Frame) (tag : Byte)
    (hk : s.claim? d.key.1 d.key.2 = some k) :
    s.published hf tag d = { s with publisher := (s.published hf tag d).publisher } ∧
      (s.published hf tag d).publisher.lastTag = tag ∧
      (s.published hf tag d).claim? d.key.1 d.key.2 = some { k with
        tag := some tag, cls := .opened, posted := some hf, settle := some 0, mark := false } ∧
      ∀ n role, (n, role) ≠ d.key → (s.published hf tag d).claim? n role = s.claim? n role :=
  ⟨rfl, rfl, State.claim?_updateClaim (s := s) hk (fun k => k.publish_isOf tag hf _ _),
    fun _ _ hne => State.claim?_updateClaim_other (s := s) (fun k => k.publish_isOf tag hf _ _) hne⟩

/-- The stages of a close in MEMBER, each over the table as it stands when the stage begins. -/
theorem State.publisherClose_stages (s : State) {x : CloseContext} (hx : x.station = .member) :
    let s1 := s.stageForfeit x
    let s2 := (s1.numbersWhere (fun r => r.pending.isSome)).foldl (fun t n => t.secondaryStep x n) s1
    let s3 := (s2.numbersWhere (fun _ => true)).foldl (fun t n => t.recordStep x n) s2
    let s4 := (s3.commitsDue s.lead x).foldl (fun t n => t.commitTest x n) s3
    let s5 := s4.admitted (s4.candidates x)
    let chosen := (s4.candidates x).take 4
    let s6 := s5.publishAll x.hf (s5.keptTags chosen) chosen
    s.publisherClose x = s6.handOn x (s6.handedOn chosen) := by
  have hlead : ((s.stageForfeit x).stageResults x).lead = s.lead :=
    ((Acts.stageForfeit s x).trans (Acts.stageResults _ x)).lead
  rw [State.publisherClose_member hx, State.closeMember_eq, State.claimsHandedOn, State.choiceAt,
    State.stageCommits_eq _ x hlead, State.stageResults_eq, State.stageChoice_eq]

end Sys2Proof.Machine

/-! PROOFS. The cycle close: R31, the resolution, and what is handed on (R15, R26, R31, R35, R61, R79, R94). -/

namespace Sys2Proof.Machine

/-! ### The member close count stands until the hand-on (R79) -/

/-- The stages before the hand-on leave the member close count. -/
def State.KeepsCloses (s t : State) : Prop := t.publisher.memberCloses = s.publisher.memberCloses

theorem State.KeepsCloses.refl (s : State) : s.KeepsCloses s := Eq.refl _

theorem State.KeepsCloses.trans {s u t : State} (h : s.KeepsCloses u) (g : u.KeepsCloses t) : s.KeepsCloses t :=
  Eq.trans g h

theorem State.KeepsCloses.foldl {α : Type} {f : State → α → State}
    (h : ∀ (s : State) a, s.KeepsCloses (f s a)) (s : State) (l : List α) : s.KeepsCloses (l.foldl f s) := by
  induction l generalizing s with
  | nil => exact .refl s
  | cons a l ih => exact (h s a).trans (ih (f s a))

theorem State.lapseAll_keepsCloses (s : State) (cause : LapseCause) (ns : List JunctionNumber) :
    s.KeepsCloses (s.lapseAll cause ns) := by
  unfold State.KeepsCloses
  rw [(s.lapseAll_lapsed cause ns).publisher]

theorem State.stageForfeit_keepsCloses (s : State) (x : CloseContext) : s.KeepsCloses (s.stageForfeit x) := by
  have hlost : s.KeepsCloses s.standingLost := State.lapseAll_keepsCloses _ _ _
  unfold State.stageForfeit
  split
  · split
    · rw [State.forfeit_rest]
      exact hlost
    · exact Eq.refl _
  · exact Eq.refl _

theorem State.settleSecondary_keepsCloses (s : State) (x : CloseContext) (r : Junction) (a : Amendment)
    (k : OwnClaim) : s.KeepsCloses (s.settleSecondary x r a k) := by
  unfold State.settleSecondary
  split
  · exact .refl s
  · dsimp only
    split <;> exact Eq.refl _

theorem State.secondaryStep_keepsCloses (s : State) (x : CloseContext) (n : JunctionNumber) :
    s.KeepsCloses (s.secondaryStep x n) := by
  unfold State.secondaryStep
  split
  · exact .refl s
  · split
    · exact .refl s
    · split
      · exact .refl s
      · split
        · exact .refl s
        · exact State.settleSecondary_keepsCloses _ _ _ _ _

theorem State.openResult_keepsCloses (s : State) (x : CloseContext) (r : Junction) (k : OwnClaim) (res : SeatResult) :
    s.KeepsCloses (s.openResult x r k res) := by
  unfold State.openResult
  split
  · exact Eq.refl _
  · dsimp only
    split <;> exact Eq.refl _

theorem State.loseLock_keepsCloses (s : State) (r : Junction) (res : SeatResult) :
    s.KeepsCloses (s.loseLock r res) := by
  rw [State.loseLock_eq]
  unfold State.unlockedLapsed
  split <;> exact Eq.refl _

theorem State.committedResult_keepsCloses (s : State) (n : JunctionNumber) (k : OwnClaim) (res : SeatResult) :
    s.KeepsCloses (s.committedResult n k res) := by
  unfold State.committedResult
  split
  · exact Eq.refl _
  · split <;> exact Eq.refl _

theorem State.recordStep_keepsCloses (s : State) (x : CloseContext) (n : JunctionNumber) :
    s.KeepsCloses (s.recordStep x n) := by
  unfold State.recordStep
  split
  · next r k _ _ =>
    split
    · next res _ =>
      cases hst : r.state with
      | planned =>
        rw [State.recordResult, hst]
        exact .refl s
      | opened =>
        rw [State.recordResult_opened hst]
        exact State.openResult_keepsCloses _ _ _ _ _
      | locked =>
        rw [State.recordResult_locked hst]
        split
        · exact Eq.refl _
        · exact State.loseLock_keepsCloses _ _ _
      | primed | squeezeIn | hold | release =>
        rw [State.recordResult_committed (by rw [hst]; rfl)]
        exact State.committedResult_keepsCloses _ _ _ _
    · exact Eq.refl _
  · exact Eq.refl _

theorem State.commitTest_keepsCloses (s : State) (x : CloseContext) (n : JunctionNumber) :
    s.KeepsCloses (s.commitTest x n) := by
  unfold State.commitTest State.KeepsCloses
  split
  · rfl
  · next r hr =>
    split
    · rw [State.commitRecord, State.createEntry, State.post_publisher, State.beginFrame_publisher]
      rfl
    · rw [State.endRecord_spec _ hr]
      rfl

theorem State.passOver_keepsCloses (s : State) (d : Candidate) : s.KeepsCloses (s.passOver d) := by
  cases d with
  | planned n => exact Eq.refl _
  | claim n role =>
    cases role with
    | secondary => exact Eq.refl _
    | record =>
      unfold State.passOver
      dsimp only
      split
      · split <;> exact Eq.refl _
      · exact Eq.refl _

theorem State.admitClaim_keepsCloses (s : State) (d : Candidate) : s.KeepsCloses (s.admitClaim d) := by
  unfold State.admitClaim
  repeat' split
  all_goals exact Eq.refl _

theorem State.publishAll_keepsCloses (s : State) (hf : Frame) (taken : List Byte) (ds : List Candidate) :
    s.KeepsCloses (s.publishAll hf taken ds) := by
  induction ds generalizing s taken with
  | nil => exact Eq.refl _
  | cons d ds ih =>
    cases hk : s.claim? d.key.1 d.key.2 with
    | none =>
      rw [State.publishAll, hk]
      exact ih s taken
    | some k =>
      cases hm : k.mark with
      | false =>
        rw [State.publishAll_kept hk hm]
        exact ih s taken
      | true =>
        rw [State.publishAll_anew hk hm]
        exact ih _ _

theorem State.stageResults_keepsCloses (s : State) (x : CloseContext) : s.KeepsCloses (s.stageResults x) := by
  rw [State.stageResults_eq]
  exact (State.KeepsCloses.foldl (fun t n => t.secondaryStep_keepsCloses x n) _ _).trans
    (State.KeepsCloses.foldl (fun t n => t.recordStep_keepsCloses x n) _ _)

theorem State.stageCommits_keepsCloses (s : State) (x : CloseContext) : s.KeepsCloses (s.stageCommits x) := by
  rw [State.stageCommits_eq s x rfl]
  exact State.KeepsCloses.foldl (fun t n => t.commitTest_keepsCloses x n) _ _

theorem State.admitted_keepsCloses (s : State) (cands : List Candidate) : s.KeepsCloses (s.admitted cands) :=
  (State.KeepsCloses.foldl State.passOver_keepsCloses _ _).trans
    (State.KeepsCloses.foldl State.admitClaim_keepsCloses _ _)

theorem State.stageChoice_keepsCloses (s : State) (x : CloseContext) : s.KeepsCloses (s.stageChoice x).1 := by
  rw [State.stageChoice_eq]
  exact (State.admitted_keepsCloses s (s.candidates x)).trans (State.publishAll_keepsCloses _ _ _ _)

theorem State.choiceAt_keepsCloses (s : State) (x : CloseContext) : s.KeepsCloses (s.choiceAt x).1 := by
  rw [State.choiceAt]
  exact (s.stageForfeit_keepsCloses x).trans ((State.stageResults_keepsCloses _ x).trans
    ((State.stageCommits_keepsCloses _ x).trans (State.stageChoice_keepsCloses _ x)))

theorem State.handOn_publisher (s : State) (x : CloseContext) (claims : List Claim) :
    (s.handOn x claims).publisher.lastChoice = claims ∧
      (s.handOn x claims).publisher.memberCloses = min (s.publisher.memberCloses + 1) 2 := ⟨rfl, rfl⟩

theorem State.closeMember_publisher (s : State) (x : CloseContext) :
    (s.closeMember x).publisher.lastChoice = s.claimsHandedOn x ∧
      (s.closeMember x).publisher.memberCloses = min (s.publisher.memberCloses + 1) 2 := by
  have hkept : (s.choiceAt x).1.publisher.memberCloses = s.publisher.memberCloses := s.choiceAt_keepsCloses x
  rw [State.closeMember_eq, ← hkept]
  exact State.handOn_publisher _ _ _

/-! ### The presence bitmap (R26) -/

/-- The bitmap over a list of stations. -/
theorem bitmap_foldl_getLsbD (p : Nat → Bool) (l : List Nat) (m : Half) {i : Nat} (hi : i < 16) :
    (l.foldl (fun m j => if p j then m ||| (1#16 <<< j) else m) m).getLsbD i =
      (m.getLsbD i || (decide (i ∈ l) && p i)) := by
  induction l generalizing m with
  | nil => simp
  | cons j l ih =>
    rw [List.foldl_cons, ih]
    by_cases hij : i = j
    · subst hij
      cases hp : p i <;> simp [hi]
    · have hbit : (1#16 <<< j).getLsbD i = false := by
        simp only [BitVec.getLsbD_shiftLeft, BitVec.getLsbD_one, hi]
        grind
      cases hp : p j <;> simp [hbit, hij]

theorem CueBus.bitmap_getLsbD (b : CueBus) {i : Nat} (hi : i < 16) :
    b.bitmap.getLsbD i = true ↔ (b.entry i).state = .present := by
  have hfold := bitmap_foldl_getLsbD (fun j => decide ((b.entry j).state = .present)) stations 0 hi
  simp only [decide_eq_true_eq] at hfold
  rw [CueBus.bitmap, hfold]
  simp [stations, hi]

/-! ### The bus and the mirror at a close (R31, R35, R63) -/

theorem exec_cycleClose {s : State} {c : Configuration} {cy : Cycle} (hc : s.config = some c)
    (hcy : s.bus.cycle = some cy) (hlast : cy.nextSlot = c.slots) :
    exec .cycleClose s = .next (s.close c cy.hf) := by
  have hdispatch : exec .cycleClose s = execCycleClose s := rfl
  rw [hdispatch, execCycleClose, hc, hcy]
  exact if_pos hlast

theorem CueBus.listened_counts {b : CueBus} (own : Nat) (hl : b.station = .listening) (h7 : b.listening < 7) :
    b.listened own = { b with listening := b.listening + 1 } := by
  rw [CueBus.listened, if_pos hl, if_neg (by omega)]

theorem CueBus.listened_enters {b : CueBus} (own : Nat) (hl : b.station = .listening) (h7 : 7 ≤ b.listening) :
    b.listened own = b.entered own := by
  rw [CueBus.listened, if_pos hl, if_pos h7]

theorem CueBus.listened_other {b : CueBus} (own : Nat) (hl : b.station ≠ .listening) : b.listened own = b := if_neg hl

theorem CueBus.entersMember_iff {b : CueBus} : b.entersMember = true ↔ b.station = .listening ∧ 7 ≤ b.listening := by
  simp [CueBus.entersMember]

/-- R31 leaves the open cycle and the group mismatch condition. -/
theorem CueBus.listened_keeps (b : CueBus) (own : Nat) :
    (b.listened own).cycle = b.cycle ∧ (b.listened own).groupMismatch = b.groupMismatch := by
  unfold CueBus.listened
  split
  · split <;> exact ⟨rfl, rfl⟩
  · exact ⟨rfl, rfl⟩

theorem CueBus.listened_station (b : CueBus) (own : Nat) :
    (b.entersMember = true → (b.listened own).station = .member) ∧
      (¬ b.entersMember = true → (b.listened own).station = b.station) := by
  rw [CueBus.entersMember_iff]
  refine ⟨fun ⟨hl, h7⟩ => by rw [CueBus.listened_enters own hl h7]; rfl, fun hnot => ?_⟩
  by_cases hl : b.station = .listening
  · rw [CueBus.listened_counts own hl (by by_contra h; exact hnot ⟨hl, by omega⟩)]
  · rw [CueBus.listened_other own hl]

/-- A close of the publisher moves the beacon held and the own mirror entry alone, and these in MEMBER. -/
theorem State.publisherClose_bus (s : State) (x : CloseContext) :
    (x.station ≠ .member → (s.publisherClose x).bus = s.bus ∧ (s.publisherClose x).mirror = s.mirror) ∧
      (x.station = .member → (s.publisherClose x).bus = { s.bus with held := (s.publisherClose x).bus.held } ∧
        (s.publisherClose x).bus.held.isSome = true ∧
        (s.publisherClose x).mirror =
          s.mirror.setEntry x.own (MirrorEntry.written (s.claimsHandedOn x) x.hf)) := by
  refine ⟨fun hx => ?_, fun hx => ?_⟩
  · rw [State.publisherClose_outside hx]
    exact ⟨(Acts.closeOutside s x).bus, (Acts.closeOutside s x).mirror⟩
  · rw [State.publisherClose_member hx, State.closeMember_bus]
    exact ⟨rfl, rfl, State.closeMember_mirror s x⟩

end Sys2Proof.Machine

/-! PROOFS. The statement of the cycle close (R31, R35, R77, R91 to R94). -/

namespace Sys2Proof.Machine

theorem State.resolvedClose_station (s : State) (c : Configuration) (hf : Frame) :
    let enters := s.bus.station = .listening ∧ 7 ≤ s.bus.listening
    (enters → (s.resolvedClose c hf).bus.station = .member) ∧
      (¬ enters → (s.resolvedClose c hf).bus.station = s.bus.station) := by
  dsimp only
  rw [← CueBus.entersMember_iff]
  exact CueBus.listened_station ({ s.bus with cycle := none } : CueBus) c.station

/-- The close as it is issued to the publisher (R35). -/
theorem State.closeContext_eq (s : State) (c : Configuration) (hf : Frame) :
    (s.resolvedClose c hf).closeContext c hf s.bus.entersMember =
      { hf := hf, station := (s.resolvedClose c hf).bus.station,
        entry := decide (s.bus.station = .listening ∧ 7 ≤ s.bus.listening), mismatch := s.bus.groupMismatch,
        results := (s.mirror.resolved c.concurrency hf).ownResults c.station, own := c.station, settle := c.settle,
        horizon := c.horizon } := by
  have hentry : s.bus.entersMember = decide (s.bus.station = .listening ∧ 7 ≤ s.bus.listening) := by
    rw [Bool.eq_iff_iff, CueBus.entersMember_iff, decide_eq_true_eq]
  have hmismatch : (s.resolvedClose c hf).bus.groupMismatch = s.bus.groupMismatch :=
    (CueBus.listened_keeps ({ s.bus with cycle := none } : CueBus) c.station).2
  rw [State.closeContext, hentry, hmismatch]
  rfl

theorem State.resolvedClose_counts {s : State} (c : Configuration) (hf : Frame) (hl : s.bus.station = .listening)
    (h7 : s.bus.listening < 7) : (s.resolvedClose c hf).bus =
      { s.bus with cycle := none, listening := s.bus.listening + 1 } :=
  CueBus.listened_counts (b := { s.bus with cycle := none }) c.station hl h7

theorem State.resolvedClose_enters {s : State} (c : Configuration) (hf : Frame) (hl : s.bus.station = .listening)
    (h7 : 7 ≤ s.bus.listening) : (s.resolvedClose c hf).bus =
      ({ s.bus with cycle := none } : CueBus).entered c.station :=
  CueBus.listened_enters (b := { s.bus with cycle := none }) c.station hl h7

theorem State.resolvedClose_other {s : State} (c : Configuration) (hf : Frame) (hl : s.bus.station ≠ .listening) :
    (s.resolvedClose c hf).bus = { s.bus with cycle := none } :=
  CueBus.listened_other (b := { s.bus with cycle := none }) c.station hl

/-- What a close makes of the bus. -/
theorem State.close_bus (s : State) (c : Configuration) (hf : Frame) :
    (s.close c hf).bus = { (s.resolvedClose c hf).bus with held := (s.close c hf).bus.held } ∧
      ((s.resolvedClose c hf).bus.station ≠ .member → (s.close c hf).bus = (s.resolvedClose c hf).bus) ∧
      ((s.resolvedClose c hf).bus.station = .member → (s.close c hf).bus.held.isSome = true) := by
  rw [State.close_eq]
  obtain ⟨houtside, hmember⟩ := State.publisherClose_bus (s.resolvedClose c hf)
    ((s.resolvedClose c hf).closeContext c hf s.bus.entersMember)
  refine ⟨?_, fun hm => (houtside hm).1, fun hm => (hmember hm).2.1⟩
  by_cases hm : (s.resolvedClose c hf).bus.station = .member
  · exact (hmember hm).1
  · rw [(houtside hm).1]

/-- What a close makes of the mirror. -/
theorem State.close_mirror (s : State) (c : Configuration) (hf : Frame) :
    (s.close c hf).mirror.lastResolution = some hf ∧
      (∀ i, i ≠ c.station → (s.close c hf).mirror.entry i = (s.mirror.resolved c.concurrency hf).entry i) ∧
      ((s.resolvedClose c hf).bus.station ≠ .member → (s.close c hf).mirror = s.mirror.resolved c.concurrency hf) := by
  rw [State.close_eq]
  obtain ⟨houtside, hmember⟩ := State.publisherClose_bus (s.resolvedClose c hf)
    ((s.resolvedClose c hf).closeContext c hf s.bus.entersMember)
  by_cases hm : (s.resolvedClose c hf).bus.station = .member
  · rw [(hmember hm).2.2]
    exact ⟨rfl, fun i hi => Mirror.entry_setEntry_other _ _ hi, fun h => absurd hm h⟩
  · rw [(houtside hm).2]
    exact ⟨rfl, fun _ _ => rfl, fun _ => rfl⟩

/-- The bus and the mirror after a close, by the state of the station before it. -/
theorem State.close_moves (s : State) (c : Configuration) (hf : Frame) (h16 : c.station < 16) :
    let t := s.close c hf
    let m := s.mirror.resolved c.concurrency hf
    t.bus.cycle = none ∧ t.mirror.lastResolution = some hf ∧
      (∀ i, i ≠ c.station → t.mirror.entry i = m.entry i) ∧
      (t.bus.station ≠ .member → t.mirror = m) ∧
      (s.bus.station = .listening → s.bus.listening < 7 →
        t.bus = { s.bus with cycle := none, listening := s.bus.listening + 1 }) ∧
      (s.bus.station = .listening ∧ 7 ≤ s.bus.listening →
        t.bus.station = .member ∧ t.bus.listening = s.bus.listening + 1 ∧ t.bus.mismatches = 0 ∧
        (t.bus.entry c.station).state = .present ∧ t.bus.held.isSome = true) ∧
      (s.bus.station = .member → t.bus = { s.bus with cycle := none, held := t.bus.held } ∧
        t.bus.held.isSome = true) ∧
      (s.bus.station = .silentClash → t.bus = { s.bus with cycle := none }) := by
  dsimp only
  obtain ⟨hbus, houtside, hheld⟩ := s.close_bus c hf
  obtain ⟨hlast, hothers, hmirror⟩ := s.close_mirror c hf
  have hcycle : (s.resolvedClose c hf).bus.cycle = none :=
    (CueBus.listened_keeps ({ s.bus with cycle := none } : CueBus) c.station).1
  generalize s.close c hf = t at hbus houtside hheld hlast hothers hmirror ⊢
  have hstation : t.bus.station = (s.resolvedClose c hf).bus.station := by rw [hbus]
  refine ⟨by rw [hbus]; exact hcycle, hlast, hothers, fun hm => hmirror (hstation ▸ hm), fun hl h7 => ?_,
    fun ⟨hl, h7⟩ => ?_, fun hm => ?_, fun hclash => ?_⟩
  · have hcounts := State.resolvedClose_counts c hf hl h7
    rw [houtside (by rw [hcounts]; simp [hl]), hcounts]
  · have henters := State.resolvedClose_enters c hf hl h7
    have hsome := hheld (by rw [henters]; rfl)
    refine ⟨by rw [hstation, henters]; rfl, ?_, ?_, ?_, hsome⟩
    · rw [hbus, henters]
      rfl
    · rw [hbus, henters]
      rfl
    · rw [hbus, henters]
      have hpresent := CueBus.setOwn_own (b := { s.bus with cycle := none }) .present h16
      exact congrArg PresenceEntry.state hpresent
  · have hother := State.resolvedClose_other c hf (s := s) (by simp [hm])
    exact ⟨by rw [hbus, hother], hheld (by rw [hother]; exact hm)⟩
  · have hother := State.resolvedClose_other c hf (s := s) (by simp [hclash])
    rw [houtside (by rw [hother]; simp [hclash]), hother]

/-- What a close hands on in MEMBER (R15, R26, R61, R79, R94). -/
theorem State.closeMember_handsOn (s : State) {x : CloseContext} (h16 : x.own < 16) :
    ∃ b, (s.closeMember x).bus.held = some b ∧ b.station = x.own ∧ b.digest = s.bus.digest.getD 0 ∧
      (∀ i, i < 16 → (b.bitmap.getLsbD i = true ↔ (s.bus.entry i).state = .present)) ∧
      b.claims = (s.closeMember x).publisher.lastChoice ∧ b.claims.length ≤ 4 ∧
      (s.closeMember x).mirror.entry x.own = MirrorEntry.written b.claims x.hf ∧
      (s.closeMember x).publisher.memberCloses = min (s.publisher.memberCloses + 1) 2 := by
  obtain ⟨hchoice, hcloses⟩ := State.closeMember_publisher s x
  have hfour := State.claimsHandedOn_length s x
  have hheld := congrArg CueBus.held (State.closeMember_bus s x)
  have hmirror := State.closeMember_mirror s x
  generalize s.closeMember x = t at hchoice hcloses hheld hmirror ⊢
  generalize s.claimsHandedOn x = claims at hchoice hfour hheld hmirror
  refine ⟨_, hheld, rfl, rfl, fun i hi => CueBus.bitmap_getLsbD s.bus hi, hchoice.symm, hfour, ?_, hcloses⟩
  rw [hmirror]
  exact Mirror.entry_setEntry_same _ _ h16

theorem State.close_handsOn {s : State} {c : Configuration} (hf : Frame) (h16 : c.station < 16)
    (hm : s.bus.station = .member) : ∃ b, (s.close c hf).bus.held = some b ∧ b.station = c.station ∧
      b.digest = s.bus.digest.getD 0 ∧
      (∀ i, i < 16 → (b.bitmap.getLsbD i = true ↔ (s.bus.entry i).state = .present)) ∧
      b.claims = (s.close c hf).publisher.lastChoice ∧ b.claims.length ≤ 4 ∧
      (s.close c hf).mirror.entry c.station = MirrorEntry.written b.claims hf ∧
      (s.close c hf).publisher.memberCloses = min (s.publisher.memberCloses + 1) 2 := by
  have hbus := State.resolvedClose_other c hf (s := s) (by simp [hm])
  have hstation : (s.resolvedClose c hf).bus.station = .member := by
    rw [hbus]
    exact hm
  obtain ⟨b, hheld, hown, hdigest, hbitmap, hclaims, hfour, hentry, hcloses⟩ :=
    State.closeMember_handsOn (s.resolvedClose c hf)
      (x := (s.resolvedClose c hf).closeContext c hf s.bus.entersMember) h16
  rw [hbus] at hdigest hbitmap
  rw [State.close_eq, State.publisherClose_member hstation]
  exact ⟨b, hheld, hown, hdigest, hbitmap, hclaims, hfour, hentry, hcloses⟩

/-- Settles O17: the close as it is issued, what it makes of the bus, the mirror and the last choice, its stages, and
the rules of the choice. -/
theorem cycleCloseCountsAndHandsOn : Obligations.CycleCloseCountsAndHandsOn := by
  refine ⟨fun s c cy hc hcy hlast h16 => ⟨⟨s.resolvedClose c cy.hf, rfl, (s.resolvedClose_station c cy.hf).1,
      (s.resolvedClose_station c cy.hf).2, ?_⟩, s.close c cy.hf, exec_cycleClose hc hcy hlast,
      (Works.close s c cy.hf).sameAround, (Works.close s c cy.hf).timing, s.close_moves c cy.hf h16⟩,
    fun s c cy hc hcy hlast h16 hm => ?_, fun s x hx => ?_, fun s n => ⟨rfl, rfl, fun _ => rfl, fun r hr =>
      ⟨State.passOver_stays hr, fun hst => ?_, _, rfl, State.admitClaim_spec hr⟩⟩,
    fun s hf taken d rest k hk => ⟨rfl, State.publishAll_kept hk, fun hm => ?_, nextTag_free _⟩⟩
  · rw [exec_cycleClose hc hcy hlast, State.close_eq, State.closeContext_eq]
  · obtain ⟨b, hb⟩ := State.close_handsOn (c := c) cy.hf h16 hm
    exact ⟨_, b, exec_cycleClose hc hcy hlast, hb⟩
  · have hstages := s.publisherClose_stages hx
    have hfive : groupFive x = fun r => if r.state = .opened then some (Candidate.claim r.number .record)
        else if r.state = .planned ∧ ahead r.fields.claimStart (x.hf + BitVec.ofNat 24 x.horizon) = false then
          some (Candidate.planned r.number)
        else none := funext (groupFive_eq x)
    simp only [State.candidates, hfive] at hstages
    exact hstages
  · exact ⟨_, State.passOver_reverts hr hst, State.revert_spec hr hst⟩
  · exact ⟨_, State.publishAll_anew hk hm, State.published_spec hf _ hk⟩

end Sys2Proof.Machine
